-- ==== Sys2Proof/Word.lean ====
section
/-! DEFINITION. The widths of the hardware's values (spec/00_scope.md section 5): all of them are unsigned bit vectors. -/

namespace Sys2Proof

/-- `u16`: the accumulator, a table entry, a command word. -/
abbrev Word := BitVec 16

/-- `u8`: the data unit of every interface (R6). -/
abbrev Byte := BitVec 8

/-- `u4`: a table index or one half of a payload byte. -/
abbrev Nibble := BitVec 4

end Sys2Proof
end

