-- ==== Sys2Proof/Syntax.lean ====
section
/-! DEFINITION. The twelve commands of spec/30_encoding.md rule R47, one constructor per row of spec/opcode_table.json.

The operand of RDREG and of WRCTRL is the whole operand byte `D`: rule R30 makes the register space's address an 8-bit
number of which 0 to 7 exist, and rule R18 speaks of a WRCTRL with any of bits 7 to 1 set. Which operand bytes are legal
is said by `Instr.wellFormed` (notes/assumptions/6.md). -/

namespace Sys2Proof

/-- A command of the hardware (00_scope.md's "command word, command: the analogue of an instruction"). -/
inductive Instr where
  /-- R115. -/
  | nop
  /-- R74. -/
  | crcStart
  /-- R75: absorb the payload byte `c`. -/
  | crcByte (c : Byte)
  /-- R76. -/
  | crcEnd
  /-- R86. -/
  | txStart
  /-- R87: emit and absorb the code byte `c`. -/
  | txByte (c : Byte)
  /-- R88. -/
  | txEnd
  /-- R98. -/
  | rxStart
  /-- R99: the next byte `d` of the received buffer. -/
  | rxByte (d : Byte)
  /-- R100. -/
  | rxEnd
  /-- R116: read register number `r`. -/
  | rdreg (r : Byte)
  /-- R117: write `CTRL`. -/
  | wrctrl (v : Byte)
  deriving DecidableEq, Repr

end Sys2Proof
end

