-- ==== Sys2Proof/WellFormed.lean ====
section
/-! DEFINITION. Which commands have a legal command word (spec/30_encoding.md rule R49, cases (c) and (d)). Cases (a) and (b)
have no term of `Instr`: an unknown `OP` and a non-zero `D` on an operand-less command are words that decode to nothing. -/

namespace Sys2Proof

/-- The register space has the numbers 0 to 7 (R20, R30); `CTRL` has one bit (R18). -/
def Instr.wellFormed : Instr → Bool
  | .nop => true
  | .crcStart => true
  | .crcByte _ => true
  | .crcEnd => true
  | .txStart => true
  | .txByte _ => true
  | .txEnd => true
  | .rxStart => true
  | .rxByte _ => true
  | .rxEnd => true
  | .rdreg r => decide (r.toNat ≤ 7)
  | .wrctrl v => decide (v.toNat ≤ 1)

end Sys2Proof
end

