-- ==== Sys2Proof/Decode.lean ====
section
/-! DEFINITION. Decoding a command word and encoding a command (spec/30_encoding.md rules R45 to R49). -/

namespace Sys2Proof

/-- R45: `OP = cw[15:8]`. -/
def opField (cw : Word) : Byte := cw.extractLsb' 8 8

/-- R45, R48: `D = cw[7:0]`, used exactly as it stands. -/
def dField (cw : Word) : Byte := cw.extractLsb' 0 8

/-- The four ways a command word can be illegal (R49). -/
inductive DecodeError where
  /-- R49 (a): `OP` is not one of the twelve. -/
  | unknownOp
  /-- R49 (b): an operand-less command with `D` not 0x00. -/
  | operandNotZero
  /-- R49 (c): RDREG of a register number above 7. -/
  | noSuchRegister
  /-- R49 (d): WRCTRL of a value above 1. -/
  | noSuchCtrlBit
  deriving DecidableEq, Repr

/-- One row of the command table of R47. -/
structure OpcodeRow where
  mnemonic : String
  matchBits : Word
  mask : Word
  /-- The command of a word that fits the row, from its operand byte. -/
  build : Byte → Instr

/-- R46 (1): a row fits a word when `(cw and mask) = match`. -/
def OpcodeRow.fits (row : OpcodeRow) (cw : Word) : Bool := (cw &&& row.mask) == row.matchBits

/-- The command table of R47, in its order. -/
def opcodeRows : List OpcodeRow := [
  ⟨"NOP", 0x0000#16, 0xFFFF#16, fun _ => .nop⟩,
  ⟨"CRC_START", 0x1000#16, 0xFFFF#16, fun _ => .crcStart⟩,
  ⟨"CRC_BYTE", 0x1100#16, 0xFF00#16, .crcByte⟩,
  ⟨"CRC_END", 0x1200#16, 0xFFFF#16, fun _ => .crcEnd⟩,
  ⟨"TX_START", 0x2000#16, 0xFFFF#16, fun _ => .txStart⟩,
  ⟨"TX_BYTE", 0x2100#16, 0xFF00#16, .txByte⟩,
  ⟨"TX_END", 0x2200#16, 0xFFFF#16, fun _ => .txEnd⟩,
  ⟨"RX_START", 0x3000#16, 0xFFFF#16, fun _ => .rxStart⟩,
  ⟨"RX_BYTE", 0x3100#16, 0xFF00#16, .rxByte⟩,
  ⟨"RX_END", 0x3200#16, 0xFFFF#16, fun _ => .rxEnd⟩,
  ⟨"RDREG", 0x4000#16, 0xFFF8#16, .rdreg⟩,
  ⟨"WRCTRL", 0x4100#16, 0xFFFE#16, .wrctrl⟩]

/-- Which case of R49 an illegal word falls under, by its `OP`. The hardware does the same in all four (R49). -/
def whyIllegal (cw : Word) : DecodeError :=
  if opField cw = 0x40#8 then .noSuchRegister
  else if opField cw = 0x41#8 then .noSuchCtrlBit
  else if opField cw ∈ [0x00#8, 0x10#8, 0x12#8, 0x20#8, 0x22#8, 0x30#8, 0x32#8] then .operandNotZero
  else .unknownOp

/-- R46 (1): find the row that fits; the rows are disjoint, so at most one does. Decoding never looks at the state. -/
def decode (cw : Word) : Except DecodeError Instr :=
  match opcodeRows.find? (fun row => row.fits cw) with
  | some row => .ok (row.build (dField cw))
  | none => .error (whyIllegal cw)

/-- The command word of a command, written from R47 and R48: `OP` above the operand byte. -/
def encode : Instr → Word
  | .nop => 0x00#8 ++ 0x00#8
  | .crcStart => 0x10#8 ++ 0x00#8
  | .crcByte c => 0x11#8 ++ c
  | .crcEnd => 0x12#8 ++ 0x00#8
  | .txStart => 0x20#8 ++ 0x00#8
  | .txByte c => 0x21#8 ++ c
  | .txEnd => 0x22#8 ++ 0x00#8
  | .rxStart => 0x30#8 ++ 0x00#8
  | .rxByte d => 0x31#8 ++ d
  | .rxEnd => 0x32#8 ++ 0x00#8
  | .rdreg r => 0x40#8 ++ r
  | .wrctrl v => 0x41#8 ++ v

/-- The word made of the low `nbits` bits of `w`. Every command is one 16-bit word (R45), so nothing lies above bit 15. -/
def tableWord (nbits w : Nat) : Word := BitVec.ofNat 16 (w % 2 ^ nbits)

/-- What the decoder reads from a word numbered as spec/opcode_table.json numbers its bits. -/
def decodeTableWord (nbits w : Nat) : Option Instr :=
  match decode (tableWord nbits w) with
  | .ok i => some i
  | .error _ => none

end Sys2Proof
end

