-- ==== Sys2Proof/Config.lean ====
section
/-! DEFINITION. The constants of spec/00_scope.md rules R3 to R5. The hardware has NO build-time parameter (R8: "The parameters
a model takes as arguments are none") and NO free value: every result of every command is stated by the spec on all
operands, so this file declares nothing opaque. -/

namespace Sys2Proof.Config

/-- R4: `MARKER`, the character `(` that opens a response frame. -/
def marker : Byte := 0x28#8

/-- R4: `TERM`, the carriage return that closes every frame. -/
def term : Byte := 0x0D#8

/-- R3: `RESERVED`, the bytes a checksum byte must not equal: left parenthesis, carriage return, line feed. -/
def reserved : List Byte := [0x28#8, 0x0D#8, 0x0A#8]

end Sys2Proof.Config
end

