-- ==== Sys2Proof/Machine/Checksum.lean ====
section
/-! DEFINITION. The Checksum Engine's functions (spec/20_memory.md rule R31, spec/40_checksum_engine.md rules R65 to R71) and the
outbound frame built on them (spec/41_frame_encoder.md rule R85). Every shared piece of arithmetic of the hardware is here. -/

namespace Sys2Proof.Machine

/-- R31: the sixteen constants of `TAB`, in index order. -/
def tabWords : List Word :=
  [0x0000#16, 0x1021#16, 0x2042#16, 0x3063#16, 0x4084#16, 0x50A5#16, 0x60C6#16, 0x70E7#16,
   0x8108#16, 0x9129#16, 0xA14A#16, 0xB16B#16, 0xC18C#16, 0xD1AD#16, 0xE1CE#16, 0xF1EF#16]

/-- R33: `TAB[i]`, defined for every 4-bit index (the list has sixteen entries, so the default is never read). -/
def tab (i : Nibble) : Word := tabWords.getD i.toNat 0x0000#16

/-- `v[15:8]`. -/
def highByte (v : Word) : Byte := v.extractLsb' 8 8

/-- `v[7:0]`. -/
def lowByte (v : Word) : Byte := v.extractLsb' 0 8

/-- `c[7:4]`. -/
def highNibble (c : Byte) : Nibble := c.extractLsb' 4 4

/-- `c[3:0]`. -/
def lowNibble (c : Byte) : Nibble := c.extractLsb' 0 4

/-- R66: `da` is taken before the shift, the shift discards it, and the table word is xor-ed in. -/
def nibStep (acc : Word) (n : Nibble) : Word :=
  let da : Nibble := acc.extractLsb' 12 4
  let sh : Word := acc <<< 4
  sh ^^^ tab (da ^^^ n)

/-- R68: the two nibbles of a byte, high nibble first. -/
def absorb (acc : Word) (c : Byte) : Word := nibStep (nibStep acc (highNibble c)) (lowNibble c)

/-- R69: the fold of `absorb` over the bytes from 0x0000. -/
def crcRaw (data : List Byte) : Word := data.foldl absorb 0x0000#16

/-- R70: reserved-byte avoidance, applied once. -/
def adj (b : Byte) : Byte := if b ∈ Config.reserved then b + 1 else b

/-- The two bytes delivered for a raw accumulator, high byte first, each adjusted by itself (R36, R71). -/
def adjustedBytes (a : Word) : Byte × Byte := (adj (highByte a), adj (lowByte a))

/-- R65, R71: `compute`. -/
def compute (data : List Byte) : Byte × Byte := adjustedBytes (crcRaw data)

/-- R55, R85: the outbound frame of a code. -/
def encodeFrame (code : List Byte) : List Byte :=
  code ++ [(compute code).1, (compute code).2, Config.term]

end Sys2Proof.Machine
end

