-- ==== Sys2Proof/Machine/State.lean ====
section
/-! DEFINITION. The state of one instance of the hardware (spec/10_state.md rule R10: eleven elements, 57 bits), the model's
own two fields beside it, the reasons a step can stop, and the state after reset (R24). -/

namespace Sys2Proof.Machine

/-- R12: the four values of the 2-bit sequencing register `MODE`; their codes are `Mode.code` of Machine/Operands.lean. -/
inductive Mode where
  | idle
  | crc
  | tx
  | rx
  deriving DecidableEq, Repr

/-- R50: the kinds of output item that exist; the other nine codes are never emitted. Their codes are `Kind.code`. -/
inductive Kind where
  | crcHi
  | crcLo
  | txd
  | body
  | verdict
  | reg
  | err
  deriving DecidableEq, Repr

/-- R50: an output item, a tagged byte. Its twelve bits are `Item.bits` of Machine/Operands.lean. -/
structure Item where
  kind : Kind
  data : Byte
  deriving DecidableEq, Repr

/-- R145, R159: what a host can do to the hardware: present one command word, or assert reset between two commands. -/
inductive HostInput where
  | word (cw : Word)
  | reset
  deriving DecidableEq, Repr

/-- R128: the two faults of the command port. Each is TAKEN (a sticky bit and an ERR item, then the next command); neither
stops the machine, so neither is a `Fault` below. -/
inductive FaultKind where
  /-- An illegal command word. -/
  | ill
  /-- A command presented in the wrong mode. -/
  | seq
  deriving DecidableEq, Repr

/-- R127: the two frame errors the hardware in scope can report. Each is a value of the verdict, not a trap (R126). -/
inductive FrameError where
  | malformedFrame
  | checksumMismatch
  deriving DecidableEq, Repr

/-- R10, the complete state of one instance. The last two fields are the MODEL's own. -/
structure State where
  /-- `ACC`, 16 bits: the checksum accumulator (R11). -/
  acc : Word
  /-- `MODE`, 2 bits: which operation is open (R12). -/
  mode : Mode
  /-- `RXN`, 3 bits of which only the values 0 to 4 occur (R15; U7 asks for a type with exactly these five). -/
  rxn : Fin 5
  /-- `MOK`, 1 bit: the first byte of the frame was the marker (R16). -/
  mok : Bool
  /-- `DL2`, 8 bits: the oldest of the last three bytes (R14). -/
  dl2 : Byte
  /-- `DL1`, 8 bits (R14). -/
  dl1 : Byte
  /-- `DL0`, 8 bits: the newest byte received (R14). -/
  dl0 : Byte
  /-- `VERIFY`, 1 bit: the field of `CTRL` (R18). -/
  verify : Bool
  /-- `ILL`, 1 bit, sticky (R17). -/
  ill : Bool
  /-- `SEQ`, 1 bit, sticky (R17). -/
  seq : Bool
  /-- `VERDICT`, 8 bits: the result byte of the last RX_END (R19). -/
  verdict : Byte
  /-- The model's: what the host will do next, first to last. The spec makes it the input of the step function (R13);
  notes/assumptions/1.md. -/
  pending : List HostInput
  /-- The model's: every item emitted so far, oldest first. The spec makes it the output of the step function, and no
  command reads it (R23); notes/assumptions/2.md. -/
  out : List Item
  deriving DecidableEq, Repr

/-- Reasons to stop with a fault: NONE. "The hardware does not stop, lock or reset; the next command word is executed
normally" (R128), and frame errors are values (R126), so this closed type has no constructor and no step raises one: that
is safe, for it removes no behaviour of the hardware (notes/assumptions/7.md). -/
inductive Fault : Type
  deriving DecidableEq, Repr

/-- Reasons for which a command has no meaning. -/
inductive Refusal where
  /-- The model gives the named command no meaning yet. Raised only by an arm of `exec` that says so (no arm does); safe, for
  nothing can be proved through it. -/
  | notModelled (mnemonic : String)
  deriving DecidableEq, Repr

/-- R24: every element after reset. Nothing is pending and nothing has been emitted. -/
def State.reset : State where
  acc := 0x0000#16
  mode := .idle
  rxn := 0
  mok := false
  dl2 := 0x00#8
  dl1 := 0x00#8
  dl0 := 0x00#8
  verify := false
  ill := false
  seq := false
  verdict := 0x00#8
  pending := []
  out := []

end Sys2Proof.Machine
end

