-- ==== Sys2Proof/Machine/Ops.lean ====
section
/-! DEFINITION. The named operations over the state: one update per element, taking a fault (spec/60_exceptions.md rule R128),
the mode check (R46 step 2), the reset event (R145) and the host's side of the command port (R13, R38). The hardware has no
trap entry beside R128 and no trap return (R133, R134), and no memory to read or write but the constant table (R30). -/

namespace Sys2Proof.Machine

namespace State

def setAcc (a : Word) (s : State) : State := { s with acc := a }

def setMode (m : Mode) (s : State) : State := { s with mode := m }

def setRxn (n : Fin 5) (s : State) : State := { s with rxn := n }

def setMok (b : Bool) (s : State) : State := { s with mok := b }

/-- Write the whole delay line `DL2, DL1, DL0`. -/
def setDelay (d2 d1 d0 : Byte) (s : State) : State := { s with dl2 := d2, dl1 := d1, dl0 := d0 }

def setVerify (b : Bool) (s : State) : State := { s with verify := b }

def setVerdict (v : Byte) (s : State) : State := { s with verdict := v }

def setPending (inputs : List HostInput) (s : State) : State := { s with pending := inputs }

/-- Set the sticky bit of a fault (R17); the other sticky bit keeps its value. -/
def setSticky (f : FaultKind) (s : State) : State :=
  match f with
  | .ill => { s with ill := true }
  | .seq => { s with seq := true }

/-- `emit K(v)`: append one item to the output stream (R50). -/
def emit (k : Kind) (v : Byte) (s : State) : State := { s with out := s.out ++ [⟨k, v⟩] }

end State

/-- R50: the data byte of the ERR item of a fault. -/
def faultCode : FaultKind → Byte
  | .ill => 0x01#8
  | .seq => 0x02#8

/-- R128, the fault procedure: the sticky bit, one ERR item, and nothing more. -/
def takeFault (f : FaultKind) (s : State) : State := (s.setSticky f).emit .err (faultCode f)

/-- R46 (2) and (3): a command that requires mode `m` has its effect in that mode and otherwise faults SEQ with no part of
its effect (R129). -/
def inMode (m : Mode) (effect : State → State) (s : State) : State :=
  if s.mode = m then effect s else takeFault .seq s

/-- R145: reset sets every element to its reset value and emits nothing. Items already emitted are the host's, and what the
host does next is its own affair, so the model's two fields stay. -/
def resetEvent (s : State) : State := { State.reset with pending := s.pending, out := s.out }

/-- The host will present `cw` before anything else it means to do. -/
def present (cw : Word) (s : State) : State := s.setPending (.word cw :: s.pending)

/-- The host's next action, and the state in which it has been taken from the port; nothing if the host does nothing more. -/
def nextInput (s : State) : Option (HostInput × State) :=
  match s.pending with
  | [] => none
  | input :: rest => some (input, s.setPending rest)

end Sys2Proof.Machine
end

