-- ==== Sys2Proof/Machine/CrcCommands.lean ====
section
/-! DEFINITION. The CRC unit: CRC_START, CRC_BYTE, CRC_END (spec/40_checksum_engine.md rules R74 to R76). -/

namespace Sys2Proof.Machine

/-- R74: legal in every mode; abandons any open operation. -/
def execCrcStart (s : State) : Host.Outcome State Fault Refusal :=
  .next ((s.setAcc 0x0000#16).setMode .crc)

/-- R75. -/
def execCrcByte (c : Byte) (s : State) : Host.Outcome State Fault Refusal :=
  .next (inMode .crc (fun s => s.setAcc (absorb s.acc c)) s)

/-- R76: `ACC` keeps the raw value; the items carry the adjusted bytes. -/
def execCrcEnd (s : State) : Host.Outcome State Fault Refusal :=
  .next (inMode .crc (fun s =>
    ((s.emit .crcHi (adjustedBytes s.acc).1).emit .crcLo (adjustedBytes s.acc).2).setMode .idle) s)

end Sys2Proof.Machine
end

