-- ==== Sys2Proof/Machine/Flags.lean ====
section
/-! DEFINITION. Every flag the spec gives: the marker flag and the saturating count of an inbound frame (spec/10_state.md rules
R15, R16) and the verdict byte (spec/30_encoding.md rules R53, R54). There are no arithmetic condition codes. -/

namespace Sys2Proof.Machine

/-- R99: `MOK` after byte `d`: the marker test on the first byte of a frame, kept on every later one. -/
def markerFlag (rxn : Fin 5) (mok : Bool) (d : Byte) : Bool := if rxn = 0 then d == Config.marker else mok

/-- R99: `min(RXN + 1, 4)`. -/
def countByte (rxn : Fin 5) : Fin 5 := ⟨min (rxn.val + 1) 4, by omega⟩

/-- R53, R54: the code of `CLASS`; 11 is never produced. -/
def classCode : Option FrameError → BitVec 2
  | none => 0b00#2
  | some .malformedFrame => 0b01#2
  | some .checksumMismatch => 0b10#2

/-- R100, R101: `accept`. -/
def accepts (framed crcMatch verify : Bool) : Bool := framed && (!verify || crcMatch)

/-- R100, R131 (2): a frame that is not framed is malformed, whatever its checksum. -/
def frameError (framed crcMatch verify : Bool) : Option FrameError :=
  if accepts framed crcMatch verify then none
  else if framed then some .checksumMismatch
  else some .malformedFrame

/-- R53: `class ++ VERIFY ++ crc_match ++ full ++ term_ok ++ marker_ok ++ accept`. -/
def verdictByte (markerOk termOk full crcMatch verify : Bool) : Byte :=
  let framed := markerOk && termOk
  classCode (frameError framed crcMatch verify) ++ BitVec.ofBool verify ++ BitVec.ofBool crcMatch ++
    BitVec.ofBool full ++ BitVec.ofBool termOk ++ BitVec.ofBool markerOk ++
    BitVec.ofBool (accepts framed crcMatch verify)

end Sys2Proof.Machine
end

