-- ==== Sys2Proof/Machine/RxCommands.lean ====
section
/-! DEFINITION. The RX unit: RX_START, RX_BYTE, RX_END (spec/42_frame_validator.md rules R98 to R100). -/

namespace Sys2Proof.Machine

/-- R98: legal in every mode; abandons any open operation, an open inbound frame included. -/
def execRxStart (s : State) : Host.Outcome State Fault Refusal :=
  .next ((((((s.setAcc 0x0000#16).setRxn 0).setMok false).setDelay 0x00#8 0x00#8 0x00#8).setVerdict
    0x00#8).setMode .rx)

/-- R99: once four bytes are in, `DL2` is known not to be in the trailer: it is absorbed, and emitted as a body byte if the
marker was right. -/
def leaveDelayLine (s : State) : State :=
  if s.rxn = 4 then
    if s.mok then (s.setAcc (absorb s.acc s.dl2)).emit .body s.dl2 else s.setAcc (absorb s.acc s.dl2)
  else s

/-- R99: every right-hand side reads the state before the command. -/
def execRxByte (d : Byte) (s : State) : Host.Outcome State Fault Refusal :=
  .next (inMode .rx (fun s =>
    (((leaveDelayLine s).setMok (markerFlag s.rxn s.mok d)).setDelay s.dl1 s.dl0 d).setRxn (countByte s.rxn)) s)

/-- R100: `crc_match`, computed whether or not the frame is framed and whatever `VERIFY` is. -/
def receivedChecksumMatches (s : State) : Bool :=
  decide (s.rxn = 4) && s.dl2 == (adjustedBytes s.acc).1 && s.dl1 == (adjustedBytes s.acc).2

/-- R100: the verdict on the bytes received so far. -/
def rxVerdict (s : State) : Byte :=
  verdictByte s.mok (decide (1 ≤ s.rxn.val) && s.dl0 == Config.term) (decide (s.rxn = 4))
    (receivedChecksumMatches s) s.verify

/-- R100: the extracted fields stay readable. -/
def execRxEnd (s : State) : Host.Outcome State Fault Refusal :=
  .next (inMode .rx (fun s => ((s.emit .verdict (rxVerdict s)).setVerdict (rxVerdict s)).setMode .idle) s)

end Sys2Proof.Machine
end

