-- ==== Sys2Proof/Machine/Operands.lean ====
section
/-! DEFINITION. What an operand names and what an item carries: the register space `R` (spec/10_state.md rules R20, R21), the
operand of WRCTRL (R18, R48), and the bits of an output item (spec/30_encoding.md rule R50). -/

namespace Sys2Proof.Machine

/-- R12: the code of `MODE`. -/
def Mode.code : Mode → BitVec 2
  | .idle => 0#2
  | .crc => 1#2
  | .tx => 2#2
  | .rx => 3#2

/-- R50: the code of `KIND`. -/
def Kind.code : Kind → BitVec 4
  | .crcHi => 0x1#4
  | .crcLo => 0x2#4
  | .txd => 0x3#4
  | .body => 0x4#4
  | .verdict => 0x5#4
  | .reg => 0x6#4
  | .err => 0xF#4

/-- R50: the twelve bits `KIND ++ DATA` of an item. -/
def Item.bits (item : Item) : BitVec 12 := item.kind.code ++ item.data

/-- R18: `CTRL` as it is read: `VERIFY` in bit 0, bits 7 to 1 read as 0. -/
def ctrlByte (s : State) : Byte := 0#7 ++ BitVec.ofBool s.verify

/-- R21: `STATUS = ILL ++ SEQ ++ MOK ++ RXN ++ MODE`. -/
def statusByte (s : State) : Byte :=
  BitVec.ofBool s.ill ++ BitVec.ofBool s.seq ++ BitVec.ofBool s.mok ++ BitVec.ofNat 3 s.rxn.val ++ s.mode.code

/-- R20: the value of register number `r`, or nothing for the numbers 8 to 255, which do not exist. -/
def readReg (r : Byte) (s : State) : Option Byte :=
  match r.toNat with
  | 0 => some (ctrlByte s)
  | 1 => some (statusByte s)
  | 2 => some (highByte s.acc)
  | 3 => some (lowByte s.acc)
  | 4 => some s.dl2
  | 5 => some s.dl1
  | 6 => some s.dl0
  | 7 => some s.verdict
  | _ => none

/-- R18, R48: the new `VERIFY` that an operand byte of WRCTRL gives, or nothing where a bit that `CTRL` does not have is set. -/
def ctrlOperand (v : Byte) : Option Bool := if v.toNat ≤ 1 then some (v.getLsbD 0) else none

end Sys2Proof.Machine
end

