-- ==== Sys2Proof/Machine/SystemCommands.lean ====
section
/-! DEFINITION. NOP, RDREG, WRCTRL (spec/43_system_commands.md rules R115 to R117). -/

namespace Sys2Proof.Machine

/-- R115. -/
def execNop (s : State) : Host.Outcome State Fault Refusal := .next s

/-- R116; a register number that does not exist makes the command's word illegal (R20, R49 c). -/
def execRdreg (r : Byte) (s : State) : Host.Outcome State Fault Refusal :=
  match readReg r s with
  | some v => .next (s.emit .reg v)
  | none => .next (takeFault .ill s)

/-- R117; a bit that `CTRL` does not have makes the command's word illegal (R18, R49 d). -/
def execWrctrl (v : Byte) (s : State) : Host.Outcome State Fault Refusal :=
  match ctrlOperand v with
  | some b => .next (s.setVerify b)
  | none => .next (takeFault .ill s)

end Sys2Proof.Machine
end

