-- ==== Sys2Proof/Machine/TxCommands.lean ====
section
/-! DEFINITION. The TX unit: TX_START, TX_BYTE, TX_END (spec/41_frame_encoder.md rules R86 to R88). -/

namespace Sys2Proof.Machine

/-- R86: legal in every mode; abandons any open operation. -/
def execTxStart (s : State) : Host.Outcome State Fault Refusal :=
  .next ((s.setAcc 0x0000#16).setMode .tx)

/-- R87: any byte value is framed; nothing is checked or escaped. -/
def execTxByte (c : Byte) (s : State) : Host.Outcome State Fault Refusal :=
  .next (inMode .tx (fun s => (s.emit .txd c).setAcc (absorb s.acc c)) s)

/-- R88: the trailer of the frame. -/
def execTxEnd (s : State) : Host.Outcome State Fault Refusal :=
  .next (inMode .tx (fun s =>
    (((s.emit .txd (adjustedBytes s.acc).1).emit .txd (adjustedBytes s.acc).2).emit .txd Config.term).setMode
      .idle) s)

end Sys2Proof.Machine
end

