-- ==== Sys2Proof/Machine/Dispatch.lean ====
section
/-! DEFINITION. One arm per command of the table (spec/30_encoding.md rule R47), in its order. -/

namespace Sys2Proof.Machine

def exec (i : Instr) (s : State) : Host.Outcome State Fault Refusal :=
  match i with
  | .nop => Sys2Proof.Machine.execNop s
  | .crcStart => Sys2Proof.Machine.execCrcStart s
  | .crcByte c => Sys2Proof.Machine.execCrcByte c s
  | .crcEnd => Sys2Proof.Machine.execCrcEnd s
  | .txStart => Sys2Proof.Machine.execTxStart s
  | .txByte c => Sys2Proof.Machine.execTxByte c s
  | .txEnd => Sys2Proof.Machine.execTxEnd s
  | .rxStart => Sys2Proof.Machine.execRxStart s
  | .rxByte d => Sys2Proof.Machine.execRxByte d s
  | .rxEnd => Sys2Proof.Machine.execRxEnd s
  | .rdreg r => Sys2Proof.Machine.execRdreg r s
  | .wrctrl v => Sys2Proof.Machine.execWrctrl v s

end Sys2Proof.Machine
end

