-- ==== Sys2Proof/Machine/Step.lean ====
section
/-! DEFINITION. One step: the spec's step function, which takes the command word as an argument (spec/10_state.md rule R13,
spec/30_encoding.md rule R46), and the host's interface, which takes the state alone. -/

namespace Sys2Proof.Machine

/-- R46: decode, then (in the command's meaning) the mode check, then the command's rule; an illegal word faults ILL and does
nothing else. This is the function of (state, command word) of 00_scope.md section 5. -/
def execWord (cw : Word) (s : State) : Host.Outcome State Fault Refusal :=
  match decode cw with
  | .ok i => exec i s
  | .error _ => .next (takeFault .ill s)

/-- One step of the machine: what the host does next is taken from the port and has its effect (R38, R145). With nothing
to do the hardware holds its state (R140; notes/assumptions/3.md). -/
def step (s : State) : Host.Outcome State Fault Refusal :=
  match nextInput s with
  | none => .next s
  | some (.reset, t) => .next (resetEvent t)
  | some (.word cw, t) => execWord cw t

/-- The word is presented next: the hardware fetches no command, it is given one (R13; notes/assumptions/1.md). -/
def State.withFetchWord (s : State) (nbits w : Nat) : State := present (tableWord nbits w) s

end Sys2Proof.Machine
end

