-- ==== Sys2Proof/Machine/Assembler.lean ====
section
/-! DEFINITION. The assembler syntax and the pseudo-instructions of spec/30_encoding.md rules R59 and R60, as a total function
from the characters of a source text to commands; it refuses (`none`) a text that does not have the rules' form. It
carries no hardware meaning (92_eei_decisions.md D26); its open points are in notes/assumptions/12.md. -/

namespace Sys2Proof.Machine

/-- R60: the pseudo-instructions. -/
inductive Pseudo where
  | crcStr (bytes : List Byte)
  | txStr (bytes : List Byte)
  | rxStr (bytes : List Byte)
  | compute (bytes : List Byte)
  | encode (bytes : List Byte)
  | validate (bytes : List Byte)
  | setverify (v : Byte)
  | rdacc
  | rdstatus
  deriving DecidableEq, Repr

/-- R60: the expansion of each. -/
def Pseudo.expand : Pseudo → List Instr
  | .crcStr bytes => bytes.map .crcByte
  | .txStr bytes => bytes.map .txByte
  | .rxStr bytes => bytes.map .rxByte
  | .compute bytes => .crcStart :: (bytes.map .crcByte ++ [.crcEnd])
  | .encode bytes => .txStart :: (bytes.map .txByte ++ [.txEnd])
  | .validate bytes => .rxStart :: (bytes.map .rxByte ++ [.rxEnd])
  | .setverify v => [.wrctrl v]
  | .rdacc => [.rdreg 2, .rdreg 3]
  | .rdstatus => [.rdreg 1]

/-- R59: mnemonics that take no operand. -/
def plainMnemonics : List (String × List Instr) := [
  ("NOP", [.nop]), ("CRC_START", [.crcStart]), ("CRC_END", [.crcEnd]), ("TX_START", [.txStart]),
  ("TX_END", [.txEnd]), ("RX_START", [.rxStart]), ("RX_END", [.rxEnd]),
  ("RDACC", Pseudo.expand .rdacc), ("RDSTATUS", Pseudo.expand .rdstatus)]

/-- R59: mnemonics that take one operand byte. -/
def byteMnemonics : List (String × (Byte → List Instr)) := [
  ("CRC_BYTE", fun c => [.crcByte c]), ("TX_BYTE", fun c => [.txByte c]), ("RX_BYTE", fun d => [.rxByte d]),
  ("RDREG", fun r => [.rdreg r]), ("WRCTRL", fun v => [.wrctrl v]),
  ("SETVERIFY", fun v => Pseudo.expand (.setverify v))]

/-- R60: pseudo-instructions that take a string. -/
def stringMnemonics : List (String × (List Byte → Pseudo)) := [
  ("CRC_STR", .crcStr), ("TX_STR", .txStr), ("RX_STR", .rxStr),
  ("COMPUTE", .compute), ("ENCODE", .encode), ("VALIDATE", .validate)]

/-- R20: the names of the registers, which RDREG takes as an operand (R59). -/
def registerNames : List (String × Byte) := [
  ("CTRL", 0), ("STATUS", 1), ("ACC_HI", 2), ("ACC_LO", 3), ("RXCHK_HI", 4), ("RXCHK_LO", 5), ("RXTERM", 6),
  ("VERDICT", 7)]

/-- The entry of a table whose name is written with these characters. -/
def lookupName {α : Type} (table : List (String × α)) (name : List Char) : Option α :=
  (table.find? (fun entry => entry.1.toList == name)).map Prod.snd

def skipSpaces : List Char → List Char
  | ' ' :: cs => skipSpaces cs
  | cs => cs

/-- The characters up to the next space or comment, and the rest. -/
def takeToken : List Char → List Char × List Char
  | [] => ([], [])
  | c :: cs => if c = ' ' ∨ c = ';' then ([], c :: cs) else ((c :: (takeToken cs).1), (takeToken cs).2)

/-- R59: nothing but spaces and a comment is left of the line. -/
def endOfLine (cs : List Char) : Bool :=
  match skipSpaces cs with
  | [] => true
  | c :: _ => c == ';'

/-- The code of a printable ASCII character. -/
def printableByte (c : Char) : Option Byte :=
  if 0x20 ≤ c.toNat ∧ c.toNat ≤ 0x7E then some (BitVec.ofNat 8 c.toNat) else none

/-- The value of a digit of R59's literals and of R60's `\xHH`: its place among the sixteen digits, which the spec writes in
upper case and this assembler also reads in lower case (notes/assumptions/12.md). -/
def hexDigit (c : Char) : Option Nat :=
  ("0123456789ABCDEF".toList.idxOf? c).or ("0123456789abcdef".toList.idxOf? c)

/-- The value of digits in a base, most significant first; `none` for a character that is no digit of the base. -/
def digitsValue (base : Nat) : Nat → List Char → Option Nat
  | value, [] => some value
  | value, c :: cs =>
    match hexDigit c with
    | some d => if d < base then digitsValue base (value * base + d) cs else none
    | none => none

/-- R59: a hexadecimal or decimal literal of one byte. The rule shows `0x51` and `81` and does not say how many digits a literal
may have: that any number of digits, leading zeros included, is accepted while the value is below 256 is the model's
choice (DESIGN CHOICE, notes/assumptions/12.md). -/
def byteLiteral (token : List Char) : Option Byte :=
  let value := match token with
    | '0' :: 'x' :: d :: ds => digitsValue 16 0 (d :: ds)
    | d :: ds => digitsValue 10 0 (d :: ds)
    | [] => none
  match value with
  | some n => if n < 256 then some (BitVec.ofNat 8 n) else none
  | none => none

/-- R59: one operand: a literal, one printable ASCII character in single quotes, or (RDREG only) a register name. -/
def byteOperand (names : List (String × Byte)) : List Char → Option (Byte × List Char)
  | '\'' :: c :: '\'' :: rest => (printableByte c).map fun b => (b, rest)
  | cs =>
    let (token, rest) := takeToken cs
    match lookupName names token with
    | some b => some (b, rest)
    | none => (byteLiteral token).map fun b => (b, rest)

/-- R60: the bytes of a string, after its opening double quote. The rule lists five escapes and does not say what a backslash
before any other character, or before an `x` without two hexadecimal digits, stands for: that such a text is refused is
the model's choice (DESIGN CHOICE, notes/assumptions/12.md). -/
def stringOperand : List Char → Option (List Byte × List Char)
  | '"' :: rest => some ([], rest)
  | '\\' :: 'r' :: rest => (stringOperand rest).map fun p => (0x0D#8 :: p.1, p.2)
  | '\\' :: 'n' :: rest => (stringOperand rest).map fun p => (0x0A#8 :: p.1, p.2)
  | '\\' :: '\\' :: rest => (stringOperand rest).map fun p => (0x5C#8 :: p.1, p.2)
  | '\\' :: '"' :: rest => (stringOperand rest).map fun p => (0x22#8 :: p.1, p.2)
  | '\\' :: 'x' :: h :: l :: rest =>
    match hexDigit h, hexDigit l with
    | some a, some b => (stringOperand rest).map fun p => (BitVec.ofNat 8 (16 * a + b) :: p.1, p.2)
    | _, _ => none
  | '\\' :: _ => none
  | c :: rest =>
    match printableByte c with
    | some b => (stringOperand rest).map fun p => (b :: p.1, p.2)
    | none => none
  | [] => none

/-- What follows the mnemonic must be exactly its operand. -/
def assembleOperand (name operand : List Char) : Option (List Instr) :=
  match lookupName plainMnemonics name, lookupName byteMnemonics name, lookupName stringMnemonics name with
  | some is, _, _ => if endOfLine operand then some is else none
  | none, some build, _ =>
    match byteOperand (if name == "RDREG".toList then registerNames else []) operand with
    | some (b, rest) => if endOfLine rest then some (build b) else none
    | none => none
  | none, none, some pseudo =>
    match operand with
    | '"' :: cs =>
      match stringOperand cs with
      | some (bytes, rest) => if endOfLine rest then some (pseudo bytes).expand else none
      | none => none
    | _ => none
  | none, none, none => none

/-- R59: one line: nothing, or one command or pseudo-instruction; only commands with a legal word are assembled. -/
def assembleLine (line : List Char) : Option (List Instr) :=
  if endOfLine line then some []
  else
    let (name, rest) := takeToken (skipSpaces line)
    match assembleOperand name (skipSpaces rest) with
    | some is => if is.all Instr.wellFormed then some is else none
    | none => none

/-- The lines of a text; the flag-free form: the current line so far, reversed, and the rest. -/
def splitLines : List Char → List Char → List (List Char)
  | line, [] => [line.reverse]
  | line, c :: cs => if c = '\n' then line.reverse :: splitLines [] cs else splitLines (c :: line) cs

/-- The commands of the lines of a source text, in order. -/
def assembleLines : List (List Char) → Option (List Instr)
  | [] => some []
  | line :: lines =>
    match assembleLine line, assembleLines lines with
    | some is, some js => some (is ++ js)
    | _, _ => none

/-- R59, R60: a source text assembled to the command words it stands for. -/
def assemble (source : List Char) : Option (List Word) :=
  (assembleLines (splitLines [] source)).map fun is => is.map Sys2Proof.encode

end Sys2Proof.Machine
end

