-- ==== Sys2Proof/Machine/FrameFunctions.lean ====
section
/-! DEFINITION. The inbound frame as a function of a whole buffer (spec/42_frame_validator.md rules R95 to R97, R101) and the
well-formed response it accepts (spec/30_encoding.md rule R56). The commands of Machine/RxCommands.lean compute the same
thing one byte at a time; that the two agree (R103) is a statement about them, not a definition. -/

namespace Sys2Proof.Machine

/-- R101: the buffer is not empty and its first byte is the marker. -/
def markerOk (raw : List Byte) : Bool := raw.head? == some Config.marker

/-- R101: the buffer is not empty and its last byte is the terminator. -/
def termOk (raw : List Byte) : Bool := raw.getLast? == some Config.term

/-- R101: the buffer has at least four bytes. -/
def isFull (raw : List Byte) : Bool := decide (4 ≤ raw.length)

/-- R96, R97: `raw[1 : n-3]` if `n >= 4`, else the empty body. -/
def frameBody (raw : List Byte) : List Byte :=
  if 4 ≤ raw.length then (raw.take (raw.length - 3)).drop 1 else []

/-- R101: the received checksum bytes `raw[n-3]`, `raw[n-2]` are the adjusted bytes of the body. -/
def checksumMatches (raw : List Byte) : Bool :=
  isFull raw && raw[raw.length - 3]? == some (compute (frameBody raw)).1
    && raw[raw.length - 2]? == some (compute (frameBody raw)).2

/-- R101: the complete function the hardware computes: the verdict and the body. -/
def validate (raw : List Byte) (verify : Bool) : Byte × List Byte :=
  (verdictByte (markerOk raw) (termOk raw) (isFull raw) (checksumMatches raw) verify, frameBody raw)

/-- R95, R101: the document's function: the body if the buffer is framed, else `MalformedFrame`. -/
def validateAndStrip (raw : List Byte) : Except FrameError (List Byte) :=
  if markerOk raw && termOk raw then .ok (frameBody raw) else .error .malformedFrame

/-- R56: the well-formed response that carries a body. -/
def responseFrame (body : List Byte) : List Byte :=
  [Config.marker] ++ body ++ [(compute body).1, (compute body).2, Config.term]

end Sys2Proof.Machine
end

