-- ==== Sys2Proof/Safety.lean ====
section
/-! DEFINITION. The terms in which the spec speaks of states, commands and runs: the well-formed states (spec/10_state.md rule
R26), the mode a command requires and leaves (R12), the parts of an operation, and clean and complete runs
(spec/70_reset_and_hazards.md rule R149). -/

namespace Sys2Proof.Machine

/-- The verdict relations of R26: `VERDICT[7:6]` is never 11, and if `VERDICT` is not 0x00 then `VERDICT[7:6] = 00` exactly when
`VERDICT[0] = 1`. -/
def verdictWf (v : Byte) : Bool :=
  v.extractLsb' 6 2 != 0b11#2 && (v == 0x00#8 || (v.extractLsb' 6 2 == 0b00#2) == v.getLsbD 0)

/-- R26: the predicate on reachable states (`RXN <= 4` holds of the type). -/
def State.wf (s : State) : Bool :=
  (!s.mok || decide (1 ≤ s.rxn.val)) &&
  (decide (3 ≤ s.rxn.val) || s.dl2 == 0x00#8) &&
  (decide (2 ≤ s.rxn.val) || s.dl1 == 0x00#8) &&
  (decide (1 ≤ s.rxn.val) || s.dl0 == 0x00#8) &&
  verdictWf s.verdict

/-- R12: the mode a command requires; `none` is "any". -/
def requiredMode : Instr → Option Mode
  | .nop => none
  | .crcStart => none
  | .crcByte _ => some .crc
  | .crcEnd => some .crc
  | .txStart => none
  | .txByte _ => some .tx
  | .txEnd => some .tx
  | .rxStart => none
  | .rxByte _ => some .rx
  | .rxEnd => some .rx
  | .rdreg _ => none
  | .wrctrl _ => none

/-- R12: `MODE` after a legal command that does not fault; `none` is "unchanged". -/
def enteredMode : Instr → Option Mode
  | .nop => none
  | .crcStart => some .crc
  | .crcByte _ => some .crc
  | .crcEnd => some .idle
  | .txStart => some .tx
  | .txByte _ => some .tx
  | .txEnd => some .idle
  | .rxStart => some .rx
  | .rxByte _ => some .rx
  | .rxEnd => some .idle
  | .rdreg _ => none
  | .wrctrl _ => none

/-- The mode check of R46 (2) lets the command through. -/
def modeAllows (i : Instr) (m : Mode) : Bool := requiredMode i == none || requiredMode i == some m

/-- R77, R89: the commands that may stand between the commands of an operation: NOP, RDREG and WRCTRL. -/
def isBystander : Instr → Bool
  | .nop => true
  | .rdreg _ => true
  | .wrctrl _ => true
  | _ => false

/-- R103: the commands that may stand between the commands of an inbound frame: NOP and RDREG. -/
def isObserver : Instr → Bool
  | .nop => true
  | .rdreg _ => true
  | _ => false

/-- The payload byte of a CRC_BYTE. -/
def crcPayload : Instr → Option Byte
  | .crcByte c => some c
  | _ => none

/-- The code byte of a TX_BYTE. -/
def txPayload : Instr → Option Byte
  | .txByte c => some c
  | _ => none

/-- The received byte of an RX_BYTE. -/
def rxPayload : Instr → Option Byte
  | .rxByte d => some d
  | _ => none

/-- What the host does when it presents these commands in this order (R38). -/
def presented (is : List Instr) : List HostInput := is.map fun i => .word (encode i)

/-- R128 spelled out for an illegal word: the sticky bit, one ERR item, and nothing more. -/
def afterIll (s : State) : State := { s with ill := true, out := s.out ++ [⟨.err, 0x01#8⟩] }

/-- R128 spelled out for a command out of sequence. -/
def afterSeq (s : State) : State := { s with seq := true, out := s.out ++ [⟨.err, 0x02#8⟩] }

/-- R149: no fault has been taken since reset. -/
def State.clean (s : State) : Bool := !s.ill && !s.seq

/-- R149: no operation is open. -/
def State.complete (s : State) : Bool := s.mode == .idle

/-- `k` steps of the machine, at the types of the model: `Host.Core.run` of the core. -/
def runSteps (k : Nat) (s : State) : Host.Outcome State Fault Refusal := Host.Core.run Sys2Proof.core k s

/-- R149: a run: one reset, then a finite sequence of command words, each of them presented and executed. -/
def runWords (words : List Word) : Host.Outcome State Fault Refusal :=
  runSteps words.length (State.reset.setPending (words.map .word))

end Sys2Proof.Machine
end

