-- ==== Sys2Proof/Certificates/Slice0/Obligations.lean ====
section
/-! DEFINITION. The statements for the provers. Each docstring names the rule of spec/ it formalises. The hardware has no memory a
command can write (R30, R33): a frame below speaks of the eleven elements of R10 and of the two fields of the model, `pending`
(what the host will do next, notes/assumptions/1.md) and `out` (the items emitted so far, notes/assumptions/2.md). An
equation `exec i s = .next { s with … }` is the result, the frame and the completion of a command at once: every field
that is not named keeps its value. -/

open Sys2Proof Sys2Proof.Machine

/-! ### Reset, the command port, one step -/

/-- R24. -/
def Obligations.ResetLeavesEveryElementAtItsValue : Prop :=
  State.reset.acc = 0x0000#16 ∧ State.reset.mode = .idle ∧ State.reset.rxn = 0 ∧ State.reset.mok = false ∧
  State.reset.dl2 = 0x00#8 ∧ State.reset.dl1 = 0x00#8 ∧ State.reset.dl0 = 0x00#8 ∧ State.reset.verify = false ∧
  State.reset.ill = false ∧ State.reset.seq = false ∧ State.reset.verdict = 0x00#8 ∧
  exec .rxStart State.reset = .next { State.reset with mode := .rx }

/-- R145: reset between two commands restores every element and emits nothing; no command word clears a sticky bit. That
reset leaves the rest of what the host will do (`pending`) and the record of the items (`out`) as they are is the model's
choice (notes/assumptions/4.md). -/
def Obligations.ResetEventRestoresTheResetState : Prop :=
  (∀ (s : State) (rest : List HostInput), s.pending = .reset :: rest →
    step s = .next { State.reset with pending := rest, out := s.out }) ∧
  (∀ (s t : State) (cw : Word) (rest : List HostInput), s.pending = .word cw :: rest → step s = .next t →
    (s.ill = true → t.ill = true) ∧ (s.seq = true → t.seq = true))

/-- R140 says that the hardware holds its state between commands; that a step with nothing presented is such a wait is the
model's choice (notes/assumptions/3.md). -/
def Obligations.NothingPresentedHoldsTheState : Prop :=
  ∀ s : State, s.pending = [] → step s = .next s

/-- R38: the word at the head of the port is taken and is what the step executes; the rest of the host's plan stays. That
the port is a field of the state is the model's choice (notes/assumptions/1.md). -/
def Obligations.StepRunsTheDecodedCommand : Prop :=
  ∀ (s : State) (cw : Word) (rest : List HostInput), s.pending = .word cw :: rest →
    (∀ i, decode cw = .ok i → step s = exec i { s with pending := rest }) ∧
    (∀ e, decode cw = .error e → step s = .next (afterIll { s with pending := rest }))

/-- From every state a step ends in a next state, and so does every command. That no meaning stops is deduced from R126, R128
and D30 (notes/assumptions/7.md); that a step with nothing presented answers next (notes/assumptions/3.md), and that a
term whose operand its command does not have answers next (notes/assumptions/6.md), are the model's choices. -/
def Obligations.EveryStepAnswersANextState : Prop :=
  (∀ s : State, ∃ t, step s = .next t) ∧ (∀ (i : Instr) (s : State), ∃ t, exec i s = .next t)

/-! ### Encoding -/

/-- R47: words written out from the patterns of the table. -/
def Obligations.WordsOfTheTableDecode : Prop :=
  decode 0b0000000000000000#16 = .ok .nop ∧ decode 0b0001000000000000#16 = .ok .crcStart ∧
  decode 0b0001000101010001#16 = .ok (.crcByte 0x51#8) ∧ decode 0b0001001000000000#16 = .ok .crcEnd ∧
  decode 0b0010000000000000#16 = .ok .txStart ∧ decode 0b0010000101010001#16 = .ok (.txByte 0x51#8) ∧
  decode 0b0010001000000000#16 = .ok .txEnd ∧ decode 0b0011000000000000#16 = .ok .rxStart ∧
  decode 0b0011000100101000#16 = .ok (.rxByte 0x28#8) ∧ decode 0b0011001000000000#16 = .ok .rxEnd ∧
  decode 0b0100000000000101#16 = .ok (.rdreg 5#8) ∧ decode 0b0100000100000001#16 = .ok (.wrctrl 1#8)

/-- Decode and encode agree, on every command with every operand its encoding admits (R47, R48). -/
def Obligations.DecodeOfEncodeIsTheCommand : Prop :=
  ∀ i : Instr, i.wellFormed = true → decode (encode i) = .ok i

/-- The other direction: a word that decodes is the word of the command it decodes to, and that command is well-formed. -/
def Obligations.EncodeOfDecodeIsTheWord : Prop :=
  ∀ (cw : Word) (i : Instr), decode cw = .ok i → encode i = cw ∧ i.wellFormed = true

/-- R49: the four cases, one behaviour for all of them, and the count of legal words. -/
def Obligations.IllegalWordsAreTheFourCases : Prop :=
  (∀ cw : Word, (∃ e, decode cw = .error e) ↔
    (opField cw ∉ [0x00#8, 0x10#8, 0x11#8, 0x12#8, 0x20#8, 0x21#8, 0x22#8, 0x30#8, 0x31#8, 0x32#8, 0x40#8, 0x41#8]) ∨
    (opField cw ∈ [0x00#8, 0x10#8, 0x12#8, 0x20#8, 0x22#8, 0x30#8, 0x32#8] ∧ dField cw ≠ 0x00#8) ∨
    (opField cw = 0x40#8 ∧ 0x07 < (dField cw).toNat) ∨
    (opField cw = 0x41#8 ∧ 0x01 < (dField cw).toNat)) ∧
  (∀ cw : Word, (∃ e, decode cw = .error e) ↔ ∀ row ∈ opcodeRows, (cw &&& row.mask) ≠ row.matchBits) ∧
  (∀ (cw : Word) (e : DecodeError) (s : State), decode cw = .error e → execWord cw s = .next (afterIll s)) ∧
  (∃ legal : List Word, legal.Nodup ∧ legal.length = 785 ∧ ∀ cw : Word, (∃ i, decode cw = .ok i) ↔ cw ∈ legal)

/-- R46: decode by the one row that fits, then the mode check, then the command's rule. -/
def Obligations.CommandWordIsExecutedInThreeSteps : Prop :=
  (∀ (cw : Word) (row row' : OpcodeRow), row ∈ opcodeRows → row' ∈ opcodeRows → row.fits cw = true →
    row'.fits cw = true → row.mnemonic = row'.mnemonic) ∧
  (∀ (cw : Word) (i : Instr), decode cw = .ok i ↔
    ∃ row ∈ opcodeRows, (cw &&& row.mask) = row.matchBits ∧ i = row.build (dField cw)) ∧
  (∀ (cw : Word) (s : State), (∀ row ∈ opcodeRows, (cw &&& row.mask) ≠ row.matchBits) →
    execWord cw s = .next (afterIll s)) ∧
  (∀ (cw : Word) (i : Instr) (m : Mode) (s : State), decode cw = .ok i → requiredMode i = some m → s.mode ≠ m →
    execWord cw s = .next (afterSeq s)) ∧
  (∀ (cw : Word) (i : Instr) (s : State), decode cw = .ok i → modeAllows i s.mode = true →
    execWord cw s = exec i s ∧ ∃ t, exec i s = .next t ∧ t.ill = s.ill ∧ t.seq = s.seq)

/-! ### The Checksum Engine's functions -/

/-- R31, R32: the sixteen literals, their closed form, and that the table is linear. -/
def Obligations.TableHasTheLiteralsAndTheirClosedForm : Prop :=
  ((List.range 16).map fun n => tab (BitVec.ofNat 4 n)) =
    [0x0000#16, 0x1021#16, 0x2042#16, 0x3063#16, 0x4084#16, 0x50A5#16, 0x60C6#16, 0x70E7#16,
     0x8108#16, 0x9129#16, 0xA14A#16, 0xB16B#16, 0xC18C#16, 0xD1AD#16, 0xE1CE#16, 0xF1EF#16] ∧
  (∀ i : Nibble, tab i = (i.zeroExtend 16 <<< 12) ^^^ (i.zeroExtend 16 <<< 5) ^^^ i.zeroExtend 16) ∧
  (∀ i j : Nibble, tab (i ^^^ j) = tab i ^^^ tab j)

/-- R66, R67: the nibble step, with either of the document's two forms of `da`. -/
def Obligations.NibbleStepShiftsAndReadsTheTable : Prop :=
  (∀ (acc : Word) (n : Nibble), nibStep acc n = (acc <<< 4) ^^^ tab (acc.extractLsb' 12 4 ^^^ n)) ∧
  (∀ acc : Word, (acc >>> 12) &&& 0xF#16 = (acc.extractLsb' 12 4).zeroExtend 16) ∧
  (∀ acc : Word, (acc >>> 8) >>> 4 = (acc.extractLsb' 12 4).zeroExtend 16)

/-- R68, R69, R34: high nibble first, then the fold; the literals are vectors V7 and V15. -/
def Obligations.RawChecksumIsTheFoldOfTheByteUpdate : Prop :=
  (∀ (acc : Word) (c : Byte), absorb acc c = nibStep (nibStep acc (c.extractLsb' 4 4)) (c.extractLsb' 0 4)) ∧
  crcRaw [] = 0x0000#16 ∧
  (∀ (data : List Byte) (c : Byte), crcRaw (data ++ [c]) = absorb (crcRaw data) c) ∧
  absorb 0x0000#16 0x41#8 = 0x58E5#16 ∧ absorb 0x4AD4#16 0x50#8 = 0x677B#16

/-- R70. -/
def Obligations.AvoidanceRaisesTheReservedBytesOnly : Prop :=
  adj 0x28#8 = 0x29#8 ∧ adj 0x0D#8 = 0x0E#8 ∧ adj 0x0A#8 = 0x0B#8 ∧
  (∀ b : Byte, b ≠ 0x28#8 → b ≠ 0x0D#8 → b ≠ 0x0A#8 → adj b = b) ∧ (∀ b : Byte, adj (adj b) = adj b)

/-- R71: the two bytes are adjusted each by itself and delivered high byte first. -/
def Obligations.ComputeAdjustsTheHalvesOfTheRawChecksum : Prop :=
  ∀ data : List Byte, compute data =
    (adj ((crcRaw data).extractLsb' 8 8), adj ((crcRaw data).extractLsb' 0 8))

/-- R72: no checksum byte is ever reserved. -/
def Obligations.ChecksumBytesAreNeverReserved : Prop :=
  ∀ data : List Byte, (compute data).1 ∉ [0x28#8, 0x0D#8, 0x0A#8] ∧ (compute data).2 ∉ [0x28#8, 0x0D#8, 0x0A#8]

/-- R79: the three collisions, and the 253 values an adjusted byte can take. -/
def Obligations.AvoidanceIsNotInjective : Prop :=
  adj 0x28#8 = adj 0x29#8 ∧ adj 0x0D#8 = adj 0x0E#8 ∧ adj 0x0A#8 = adj 0x0B#8 ∧
  (∀ b : Byte, (∃ a, adj a = b) ↔ b ∉ [0x28#8, 0x0D#8, 0x0A#8])

/-- R80: zero bytes alone leave the accumulator at zero, so leading zero bytes are not detected. -/
def Obligations.LeadingZeroBytesAreNotDetected : Prop :=
  ∀ (n : Nat) (data : List Byte),
    crcRaw (List.replicate n 0x00#8) = 0x0000#16 ∧ compute (List.replicate n 0x00#8 ++ data) = compute data

/-- R78 without its catalogue name: `crc_raw` is the bit-serial check with polynomial 0x1021, initial value 0, most
significant bit first, no reflection and no final exclusive or; and its value for "123456789". -/
def Obligations.RawChecksumIsTheBitSerialCheck : Prop :=
  (∀ data : List Byte, crcRaw data =
    data.foldl (fun (acc : Word) (c : Byte) =>
      (List.range 8).foldl (fun (a : Word) (k : Nat) =>
        (a <<< 1) ^^^ (if a.getLsbD 15 ^^ c.getLsbD (7 - k) then 0x1021#16 else 0x0000#16)) acc) 0x0000#16) ∧
  crcRaw [0x31#8, 0x32#8, 0x33#8, 0x34#8, 0x35#8, 0x36#8, 0x37#8, 0x38#8, 0x39#8] = 0x31C3#16

/-! ### The commands -/

/-- R115. -/
def Obligations.NopChangesNothing : Prop :=
  decode 0x0000#16 = .ok .nop ∧ (∀ s : State, exec .nop s = .next s) ∧
  (∀ (d : Byte) (s : State), d ≠ 0x00#8 → execWord (0x00#8 ++ d) s = .next (afterIll s))

/-- R74. -/
def Obligations.CrcStartOpensAChecksum : Prop :=
  decode 0x1000#16 = .ok .crcStart ∧
  (∀ s : State, exec .crcStart s = .next { s with acc := 0x0000#16, mode := .crc }) ∧
  (∀ (d : Byte) (s : State), d ≠ 0x00#8 → execWord (0x10#8 ++ d) s = .next (afterIll s)) ∧
  (∀ s t : State, exec .crcStart s = .next t → exec .crcStart t = .next t) ∧
  (∀ t : State, exec .crcStart State.reset = .next t → t.mode = .crc ∧ t.acc = 0x0000#16 ∧ statusByte t = 0x01#8)

/-- R75. -/
def Obligations.CrcByteAbsorbsItsOperand : Prop :=
  (∀ c : Byte, decode (0x1100#16 + c.zeroExtend 16) = .ok (.crcByte c)) ∧
  (∀ (c : Byte) (s : State), s.mode = .crc → exec (.crcByte c) s = .next { s with acc := absorb s.acc c }) ∧
  (∀ (c : Byte) (s : State), s.mode ≠ .crc → exec (.crcByte c) s = .next (afterSeq s)) ∧
  absorb 0x0000#16 0x00#8 = 0x0000#16 ∧ nibStep 0x0000#16 0x5#4 = 0x50A5#16 ∧ nibStep 0x50A5#16 0x1#4 = 0x4AD4#16 ∧
  absorb 0x0000#16 0x51#8 = 0x4AD4#16

/-- R76. -/
def Obligations.CrcEndDeliversTheAdjustedBytes : Prop :=
  decode 0x1200#16 = .ok .crcEnd ∧
  (∀ s : State, s.mode = .crc → exec .crcEnd s =
    .next { s with mode := .idle,
                   out := s.out ++ [⟨.crcHi, adj (s.acc.extractLsb' 8 8)⟩, ⟨.crcLo, adj (s.acc.extractLsb' 0 8)⟩] }) ∧
  (∀ s : State, s.mode ≠ .crc → exec .crcEnd s = .next (afterSeq s)) ∧
  (∀ (d : Byte) (s : State), d ≠ 0x00#8 → execWord (0x12#8 ++ d) s = .next (afterIll s)) ∧
  (∀ s t : State, s.mode = .crc → exec .crcEnd s = .next t → exec .crcEnd t = .next (afterSeq t)) ∧
  adj 0x00#8 = 0x00#8 ∧ adj 0xB7#8 = 0xB7#8 ∧ adj 0xA9#8 = 0xA9#8 ∧
  crcRaw [0x54#8, 0x45#8, 0x53#8, 0x54#8] = 0x080A#16 ∧ adj 0x0A#8 = 0x0B#8

/-- R86. -/
def Obligations.TxStartOpensAnOutboundFrame : Prop :=
  decode 0x2000#16 = .ok .txStart ∧
  (∀ s : State, exec .txStart s = .next { s with acc := 0x0000#16, mode := .tx }) ∧
  (∀ (d : Byte) (s : State), d ≠ 0x00#8 → execWord (0x20#8 ++ d) s = .next (afterIll s)) ∧
  (∀ t : State, exec .txStart State.reset = .next t → t.mode = .tx ∧ statusByte t = 0x02#8)

/-- R87. -/
def Obligations.TxByteEmitsAndAbsorbsItsOperand : Prop :=
  (∀ c : Byte, decode (0x2100#16 + c.zeroExtend 16) = .ok (.txByte c)) ∧
  (∀ (c : Byte) (s : State), s.mode = .tx →
    exec (.txByte c) s = .next { s with acc := absorb s.acc c, out := s.out ++ [⟨.txd, c⟩] }) ∧
  (∀ (c : Byte) (s : State), s.mode ≠ .tx → exec (.txByte c) s = .next (afterSeq s)) ∧
  absorb 0x0000#16 0x51#8 = 0x4AD4#16

/-- R88. -/
def Obligations.TxEndEmitsTheTrailer : Prop :=
  decode 0x2200#16 = .ok .txEnd ∧
  (∀ s : State, s.mode = .tx → exec .txEnd s =
    .next { s with mode := .idle,
                   out := s.out ++ [⟨.txd, adj (s.acc.extractLsb' 8 8)⟩, ⟨.txd, adj (s.acc.extractLsb' 0 8)⟩,
                                    ⟨.txd, 0x0D#8⟩] }) ∧
  (∀ s : State, s.mode ≠ .tx → exec .txEnd s = .next (afterSeq s)) ∧
  (∀ (d : Byte) (s : State), d ≠ 0x00#8 → execWord (0x22#8 ++ d) s = .next (afterIll s)) ∧
  adj 0x00#8 = 0x00#8 ∧ adj 0xF8#8 = 0xF8#8 ∧ adj 0x54#8 = 0x54#8 ∧
  (∀ b : Byte, adj b ≠ 0x28#8 ∧ adj b ≠ 0x0D#8 ∧ adj b ≠ 0x0A#8)

/-- R98. -/
def Obligations.RxStartOpensAnInboundFrame : Prop :=
  decode 0x3000#16 = .ok .rxStart ∧
  (∀ s : State, exec .rxStart s =
    .next { s with acc := 0x0000#16, rxn := 0, mok := false, dl2 := 0x00#8, dl1 := 0x00#8, dl0 := 0x00#8,
                   verdict := 0x00#8, mode := .rx }) ∧
  (∀ (d : Byte) (s : State), d ≠ 0x00#8 → execWord (0x30#8 ++ d) s = .next (afterIll s)) ∧
  (∀ s t : State, exec .rxStart s = .next t → (statusByte t).extractLsb' 0 6 = 0b000011#6)

/-- R99: the shift of the delay line, the marker test, the count, and the byte that leaves the line; the literals are the
rule's example. -/
def Obligations.RxByteShiftsTheDelayLine : Prop :=
  (∀ d : Byte, decode (0x3100#16 + d.zeroExtend 16) = .ok (.rxByte d)) ∧
  (∀ (d : Byte) (s : State), s.mode = .rx → exec (.rxByte d) s =
    .next { s with
      mok := if s.rxn = 0 then decide (d = 0x28#8) else s.mok,
      acc := if s.rxn = 4 then absorb s.acc s.dl2 else s.acc,
      out := s.out ++ (if s.rxn = 4 ∧ s.mok = true then [⟨.body, s.dl2⟩] else []),
      dl2 := s.dl1, dl1 := s.dl0, dl0 := d,
      rxn := if s.rxn = 4 then 4 else s.rxn + 1 }) ∧
  (∀ (d : Byte) (s : State), s.mode ≠ .rx → exec (.rxByte d) s = .next (afterSeq s)) ∧
  absorb 0x0000#16 0x54#8 = 0x1A71#16

/-- R100: the verdict is written out here bit by bit from the rule, not with the model's own verdict function. -/
def Obligations.RxEndReportsTheVerdict : Prop :=
  decode 0x3200#16 = .ok .rxEnd ∧
  (∀ s : State, s.mode = .rx →
    let termOk := decide (1 ≤ s.rxn.val) && decide (s.dl0 = 0x0D#8)
    let full := decide (s.rxn.val = 4)
    let crcMatch := full && decide (s.dl2 = adj (s.acc.extractLsb' 8 8)) && decide (s.dl1 = adj (s.acc.extractLsb' 0 8))
    let framed := s.mok && termOk
    let accept := framed && (!s.verify || crcMatch)
    let cls : BitVec 2 := if accept then 0b00#2 else if framed then 0b10#2 else 0b01#2
    let v : Byte := cls ++ BitVec.ofBool s.verify ++ BitVec.ofBool crcMatch ++ BitVec.ofBool full ++
      BitVec.ofBool termOk ++ BitVec.ofBool s.mok ++ BitVec.ofBool accept
    exec .rxEnd s = .next { s with mode := .idle, verdict := v, out := s.out ++ [⟨.verdict, v⟩] }) ∧
  (∀ s : State, s.mode ≠ .rx → exec .rxEnd s = .next (afterSeq s)) ∧
  (∀ (d : Byte) (s : State), d ≠ 0x00#8 → execWord (0x32#8 ++ d) s = .next (afterIll s)) ∧
  (∀ s t u : State, exec .rxStart s = .next t → exec .rxEnd t = .next u →
    u.verdict = if s.verify then 0x60#8 else 0x40#8) ∧
  (∀ s t : State, s.mode = .rx → s.mok = true → s.rxn = 4 → s.acc = 0x080A#16 → s.dl0 = 0x0D#8 → s.verify = false →
    exec .rxEnd s = .next t →
    (s.dl2 = 0xAA#8 → s.dl1 = 0xBB#8 → t.verdict = 0x0F#8) ∧ (s.dl2 = 0x08#8 → s.dl1 = 0x0B#8 → t.verdict = 0x1F#8))

/-- R116 with the table of R20: the value of each of the eight registers; a read changes nothing but the output stream; the
numbers 8 to 255 do not exist, and an RDREG of one is an illegal word. -/
def Obligations.RdregReadsTheRegisterSpace : Prop :=
  (∀ s : State,
    exec (.rdreg 0#8) s = .next { s with out := s.out ++ [⟨.reg, 0#7 ++ BitVec.ofBool s.verify⟩] } ∧
    exec (.rdreg 1#8) s = .next { s with out := s.out ++ [⟨.reg, BitVec.ofBool s.ill ++ BitVec.ofBool s.seq ++
      BitVec.ofBool s.mok ++ BitVec.ofNat 3 s.rxn.val ++ s.mode.code⟩] } ∧
    exec (.rdreg 2#8) s = .next { s with out := s.out ++ [⟨.reg, s.acc.extractLsb' 8 8⟩] } ∧
    exec (.rdreg 3#8) s = .next { s with out := s.out ++ [⟨.reg, s.acc.extractLsb' 0 8⟩] } ∧
    exec (.rdreg 4#8) s = .next { s with out := s.out ++ [⟨.reg, s.dl2⟩] } ∧
    exec (.rdreg 5#8) s = .next { s with out := s.out ++ [⟨.reg, s.dl1⟩] } ∧
    exec (.rdreg 6#8) s = .next { s with out := s.out ++ [⟨.reg, s.dl0⟩] } ∧
    exec (.rdreg 7#8) s = .next { s with out := s.out ++ [⟨.reg, s.verdict⟩] }) ∧
  (∀ r : Byte, r.toNat ≤ 7 → decode (0x4000#16 + r.zeroExtend 16) = .ok (.rdreg r)) ∧
  (∀ (r : Byte) (s : State), 7 < r.toNat → execWord (0x40#8 ++ r) s = .next (afterIll s)) ∧
  (∀ r : Byte, r.toNat ≤ 7 → readReg r State.reset = some 0x00#8) ∧
  (∀ (r v : Byte) (s t : State), 1 ≤ r.toNat → r.toNat ≤ 7 → v.toNat ≤ 1 → exec (.wrctrl v) s = .next t →
    readReg r t = readReg r s) ∧
  crcRaw [0x54#8, 0x45#8, 0x53#8, 0x54#8] = 0x080A#16

/-- What the two operands RDREG and WRCTRL do not admit: the command's own term faults as its word does. That such a term
exists is the model's choice (notes/assumptions/6.md). -/
def Obligations.OperandsThatDoNotExistFaultIll : Prop :=
  (∀ (r : Byte) (s : State), 7 < r.toNat → exec (.rdreg r) s = .next (afterIll s)) ∧
  (∀ (v : Byte) (s : State), 1 < v.toNat → exec (.wrctrl v) s = .next (afterIll s)) ∧
  (∀ (i : Instr) (s : State), execWord (encode i) s = exec i s)

/-- R117. -/
def Obligations.WrctrlSetsVerify : Prop :=
  (∀ v : Byte, v.toNat ≤ 1 → decode (0x4100#16 + v.zeroExtend 16) = .ok (.wrctrl v)) ∧
  (∀ (v : Byte) (s : State), v.toNat ≤ 1 → exec (.wrctrl v) s = .next { s with verify := v.getLsbD 0 }) ∧
  (∀ (v : Byte) (s : State), 1 < v.toNat → execWord (0x41#8 ++ v) s = .next (afterIll s)) ∧
  (∀ s t : State, exec (.wrctrl 1#8) s = .next t →
    exec (.rdreg 0#8) t = .next { t with out := t.out ++ [⟨.reg, 0x01#8⟩] })

/-! ### Registers, items, verdicts, faults -/

/-- R21: the fields of `STATUS`, and the rule's example. -/
def Obligations.StatusHoldsItsFields : Prop :=
  (∀ s : State, (statusByte s).extractLsb' 0 2 = s.mode.code ∧ ((statusByte s).extractLsb' 2 3).toNat = s.rxn.val ∧
    (statusByte s).getLsbD 5 = s.mok ∧ (statusByte s).getLsbD 6 = s.seq ∧ (statusByte s).getLsbD 7 = s.ill) ∧
  (∀ s t u : State, s.ill = false → s.seq = false → exec .rxStart s = .next t → exec (.rxByte 0x28#8) t = .next u →
    statusByte u = 0x27#8)

/-- R18: bits 7 to 1 of `CTRL` read as 0, and `VERIFY` decides whether RX_END demands the checksum. -/
def Obligations.CtrlHasTheOneFieldVerify : Prop :=
  (∀ s : State, (ctrlByte s).getLsbD 0 = s.verify ∧ (ctrlByte s).extractLsb' 1 7 = 0#7) ∧
  (∀ s t : State, s.mode = .rx → exec .rxEnd s = .next t →
    (t.verdict.getLsbD 0 = true ↔
      (s.mok = true ∧ 1 ≤ s.rxn.val ∧ s.dl0 = 0x0D#8) ∧
      (s.verify = true → s.rxn = 4 ∧ s.dl2 = adj (s.acc.extractLsb' 8 8) ∧ s.dl1 = adj (s.acc.extractLsb' 0 8)))) ∧
  (∀ (v : Byte) (s : State), v.extractLsb' 1 7 ≠ 0#7 → execWord (0x41#8 ++ v) s = .next (afterIll s)) ∧
  State.reset.verify = false

/-- R50: the twelve bits of an item and the codes of the kinds; only the ERR data of the two faults is ever emitted. -/
def Obligations.ItemsCarryTheirKindAndData : Prop :=
  (∀ item : Item, item.bits.extractLsb' 8 4 = item.kind.code ∧ item.bits.extractLsb' 0 8 = item.data) ∧
  Kind.crcHi.code = 0x1#4 ∧ Kind.crcLo.code = 0x2#4 ∧ Kind.txd.code = 0x3#4 ∧ Kind.body.code = 0x4#4 ∧
  Kind.verdict.code = 0x5#4 ∧ Kind.reg.code = 0x6#4 ∧ Kind.err.code = 0xF#4 ∧
  (∀ s t : State, step s = .next t →
    ∃ new : List Item, t.out = s.out ++ new ∧ ∀ item ∈ new, item.kind = .err → item.data = 0x01#8 ∨ item.data = 0x02#8)

/-- R51: which items each command emits, in order; a faulting command emits one ERR item and no other; never more than three. -/
def Obligations.EveryCommandEmitsItsItems : Prop :=
  (∀ (i : Instr) (s t : State), i.wellFormed = true → exec i s = .next t →
    ∃ new : List Item, t.out = s.out ++ new ∧ new.length ≤ 3 ∧
      new.map Item.kind =
        if modeAllows i s.mode then
          match i with
          | .nop => []
          | .crcStart => []
          | .crcByte _ => []
          | .crcEnd => [.crcHi, .crcLo]
          | .txStart => []
          | .txByte _ => [.txd]
          | .txEnd => [.txd, .txd, .txd]
          | .rxStart => []
          | .rxByte _ => if s.rxn = 4 ∧ s.mok = true then [.body] else []
          | .rxEnd => [.verdict]
          | .rdreg _ => [.reg]
          | .wrctrl _ => []
        else [.err]) ∧
  (∀ (cw : Word) (e : DecodeError) (s t : State), decode cw = .error e → execWord cw s = .next t →
    t.out = s.out ++ [⟨.err, 0x01#8⟩])

/-- R104: the relations inside every verdict RX_END produces. -/
def Obligations.VerdictFieldsAreConsistent : Prop :=
  ∀ s t : State, s.mode = .rx → exec .rxEnd s = .next t →
    let v := t.verdict
    let cls := v.extractLsb' 6 2
    v ≠ 0x00#8 ∧ (cls = 0b00#2 ↔ v.getLsbD 0 = true) ∧ cls ≠ 0b11#2 ∧
    (v.getLsbD 0 = true → v.getLsbD 1 = true ∧ v.getLsbD 2 = true) ∧
    (v.getLsbD 4 = true → v.getLsbD 3 = true) ∧
    (cls = 0b10#2 → v.getLsbD 5 = true ∧ v.getLsbD 1 = true ∧ v.getLsbD 2 = true ∧ v.getLsbD 4 = false) ∧
    (v.getLsbD 5 = false → v.getLsbD 0 = false → cls = 0b01#2)

/-- R128: the fault procedure, for every illegal word and every command out of sequence. After a fault every word, an illegal or
out-of-sequence one included, does what it does without the fault: its items follow the ERR item, and the state differs
in the sticky bit alone. RDREG of `STATUS`, the one command that shows the sticky bits, shows them as they are then. -/
def Obligations.FaultSetsItsBitAndEmitsOneItem : Prop :=
  (∀ (cw : Word) (e : DecodeError) (s : State), decode cw = .error e →
    execWord cw s = .next { s with ill := true, out := s.out ++ [⟨.err, 0x01#8⟩] }) ∧
  (∀ (i : Instr) (m : Mode) (s : State), requiredMode i = some m → s.mode ≠ m →
    exec i s = .next { s with seq := true, out := s.out ++ [⟨.err, 0x02#8⟩] }) ∧
  (∀ (cw : Word) (s t : State), decode cw ≠ .ok (.rdreg 1#8) → execWord cw s = .next t →
    ∃ new : List Item, t.out = s.out ++ new ∧
      execWord cw { s with ill := true, out := s.out ++ [⟨.err, 0x01#8⟩] } =
        .next { t with ill := true, out := s.out ++ [⟨.err, 0x01#8⟩] ++ new } ∧
      execWord cw { s with seq := true, out := s.out ++ [⟨.err, 0x02#8⟩] } =
        .next { t with seq := true, out := s.out ++ [⟨.err, 0x02#8⟩] ++ new }) ∧
  (∀ (f : FaultKind) (s : State), execWord 0x4001#16 (takeFault f s) =
    .next { takeFault f s with out := (takeFault f s).out ++ [⟨.reg, statusByte (takeFault f s)⟩] })

/-- R12: the codes and the transition table of `MODE`. -/
def Obligations.ModeFollowsItsTransitionTable : Prop :=
  Mode.idle.code = 0#2 ∧ Mode.crc.code = 1#2 ∧ Mode.tx.code = 2#2 ∧ Mode.rx.code = 3#2 ∧
  (∀ (i : Instr) (s : State), i.wellFormed = true → modeAllows i s.mode = true →
    ∃ t, exec i s = .next t ∧ t.mode = (enteredMode i).getD s.mode ∧ t.seq = s.seq ∧ t.ill = s.ill) ∧
  (∀ (i : Instr) (s : State), modeAllows i s.mode = false →
    ∃ t, exec i s = .next t ∧ t.mode = s.mode ∧ t.seq = true) ∧
  (∀ (cw : Word) (e : DecodeError) (s : State), decode cw = .error e →
    ∃ t, execWord cw s = .next t ∧ t.mode = s.mode ∧ t.ill = true)

/-- R131 (1): an illegal word faults ILL in every mode and never SEQ; (2), (3): in a verdict a framing error comes before a
checksum error, and both framing flags are reported; (4): RX_END either faults or gives a verdict, never both. -/
def Obligations.DecodeComesBeforeTheModeCheck : Prop :=
  (∀ (cw : Word) (e : DecodeError) (s : State), decode cw = .error e →
    ∃ t, execWord cw s = .next t ∧ t.ill = true ∧ t.seq = s.seq) ∧
  (∀ s t : State, s.mode = .rx → exec .rxEnd s = .next t →
    (t.verdict.getLsbD 1 = false ∨ t.verdict.getLsbD 2 = false → t.verdict.extractLsb' 6 2 = 0b01#2) ∧
    t.verdict.getLsbD 1 = s.mok ∧ (t.verdict.getLsbD 2 = true ↔ 1 ≤ s.rxn.val ∧ s.dl0 = 0x0D#8) ∧
    t.ill = s.ill ∧ t.seq = s.seq) ∧
  (∀ s t : State, s.mode ≠ .rx → exec .rxEnd s = .next t →
    t.verdict = s.verdict ∧ t.out = s.out ++ [⟨.err, 0x02#8⟩])

/-- R154, R117: the policy applied to a frame is the one in force when its RX_END executes, and the verdict records it. -/
def Obligations.VerifyIsSampledByRxEnd : Prop :=
  ∀ (v : Byte) (s t u : State), s.mode = .rx → v.toNat ≤ 1 → exec (.wrctrl v) s = .next t → exec .rxEnd t = .next u →
    u.verdict.getLsbD 5 = v.getLsbD 0 ∧
    (u.verdict.getLsbD 0 = true ↔ u.verdict.getLsbD 1 = true ∧ u.verdict.getLsbD 2 = true ∧
      (v = 1#8 → u.verdict.getLsbD 4 = true))

/-! ### The whole machine -/

/-- R26 at reset. -/
def Obligations.ResetStateIsWellFormed : Prop := State.reset.wf = true

/-- R26: every step of every kind, from every well-formed state, keeps the relations between `RXN`, `MOK`, the delay line and
`VERDICT`. -/
def Obligations.EveryStepKeepsStatesWellFormed : Prop :=
  ∀ s t : State, s.wf = true → step s = .next t → t.wf = true

/-- R25: how long each result stays: which commands write which element; R17, R118: no command clears a sticky bit. -/
def Obligations.ResultsKeepTheirValuesUntilTheirNextWriter : Prop :=
  ∀ (i : Instr) (s t : State), exec i s = .next t →
    (i ∉ [.crcStart, .txStart, .rxStart] → crcPayload i = none → txPayload i = none → rxPayload i = none →
      t.acc = s.acc) ∧
    (i ≠ .rxStart → rxPayload i = none →
      t.rxn = s.rxn ∧ t.mok = s.mok ∧ t.dl2 = s.dl2 ∧ t.dl1 = s.dl1 ∧ t.dl0 = s.dl0) ∧
    (i ≠ .rxStart → i ≠ .rxEnd → t.verdict = s.verdict) ∧
    ((∀ v, i ≠ .wrctrl v) → t.verify = s.verify) ∧
    (s.ill = true → t.ill = true) ∧ (s.seq = true → t.seq = true)

/-- R23: the output stream is write-only: whatever was emitted before, the step is the same and appends the same. -/
def Obligations.NoStepReadsTheOutputStream : Prop :=
  ∀ (s t : State) (earlier : List Item), step s = .next t →
    step { s with out := earlier ++ s.out } = .next { t with out := earlier ++ t.out }

/-- R25 as noninterference. Two states agree when they have the same `MODE` and the same value in what the open operation reads
(nothing when no operation is open, `ACC` in any operation, the frame registers in an inbound one). Agreement is kept by
every command, RDREG included, and by every step (illegal words, reset and the idle step too; that these are steps over
`pending` is the model's choice, notes/assumptions/1.md, 3.md and 4.md). From two states that agree
every command but RDREG emits the same items, and only RX_END in an open frame needs the same `VERIFY` for that; RDREG
shows a register, which may differ. After a START any two states agree. Two states with the same `VERIFY` keep the same
`VERIFY`, and any two have the same after a WRCTRL. So, RDREG's own items aside, the items of an operation depend only on
its own command words and, for RX_END, on `VERIFY`. -/
def Obligations.OperationsDoNotSeeEarlierResults : Prop :=
  let agree (s s' : State) : Prop :=
    s.mode = s'.mode ∧ (s.mode ≠ .idle → s.acc = s'.acc) ∧
    (s.mode = .rx → s.rxn = s'.rxn ∧ s.mok = s'.mok ∧ s.dl2 = s'.dl2 ∧ s.dl1 = s'.dl1 ∧ s.dl0 = s'.dl0)
  (∀ (i : Instr) (s s' t t' : State), agree s s' → exec i s = .next t → exec i s' = .next t' → agree t t') ∧
  (∀ s s' t t' : State, s.pending = s'.pending → agree s s' → step s = .next t → step s' = .next t' →
    t.pending = t'.pending ∧ agree t t') ∧
  (∀ (i : Instr) (s s' t t' : State), (∀ r, i ≠ .rdreg r) → (i = .rxEnd → s.mode = .rx → s.verify = s'.verify) →
    agree s s' → exec i s = .next t → exec i s' = .next t' →
    ∃ new, t.out = s.out ++ new ∧ t'.out = s'.out ++ new) ∧
  (∀ (i : Instr) (s s' t t' : State), i ∈ [.crcStart, .txStart, .rxStart] →
    exec i s = .next t → exec i s' = .next t' → agree t t') ∧
  (∀ (i : Instr) (s s' t t' : State), s.verify = s'.verify → exec i s = .next t → exec i s' = .next t' →
    t.verify = t'.verify) ∧
  (∀ (v : Byte) (s s' t t' : State), v.toNat ≤ 1 → exec (.wrctrl v) s = .next t → exec (.wrctrl v) s' = .next t' →
    t.verify = t'.verify)

/-- R149, R129: in a run of any command words from reset, `ILL` is set exactly if an `ERR(0x01)` was emitted and `SEQ` exactly
if an `ERR(0x02)` was, so a run is clean exactly if no ERR item was emitted. -/
def Obligations.RunIsCleanExactlyIfNoErrItem : Prop :=
  ∀ (words : List Word), ∃ t : State, runWords words = .next t ∧
    (t.ill = true ↔ (⟨.err, 0x01#8⟩ : Item) ∈ t.out) ∧ (t.seq = true ↔ (⟨.err, 0x02#8⟩ : Item) ∈ t.out) ∧
    (t.clean = true ↔ ∀ item ∈ t.out, item.kind ≠ .err)

/-- R77: the CRC operation computes `compute` of its bytes from any start state, with NOP, RDREG and WRCTRL anywhere between. -/
def Obligations.CrcOperationComputesTheChecksum : Prop :=
  ∀ (is : List Instr) (s : State) (rest : List HostInput),
    (∀ i ∈ is, i.wellFormed = true ∧ (isBystander i = true ∨ (crcPayload i).isSome = true)) →
    s.pending = presented (.crcStart :: is) ++ rest →
    ∃ t : State, runSteps (is.length + 1) s = .next t ∧ t.pending = rest ∧
      t.acc = crcRaw (is.filterMap crcPayload) ∧ t.mode = .crc ∧
      ∀ rest', rest = .word (encode .crcEnd) :: rest' →
        ∃ u, step t = .next u ∧ u.mode = .idle ∧
          u.out = t.out ++ [⟨.crcHi, (compute (is.filterMap crcPayload)).1⟩,
                            ⟨.crcLo, (compute (is.filterMap crcPayload)).2⟩]

/-- R85, R55, R90: the outbound frame, and the document's own example. -/
def Obligations.FrameIsCodeChecksumTerminator : Prop :=
  (∀ code : List Byte, encodeFrame code = code ++ [(compute code).1, (compute code).2, 0x0D#8] ∧
    (encodeFrame code).length = code.length + 3) ∧
  encodeFrame [0x51#8, 0x50#8, 0x49#8, 0x47#8, 0x53#8] =
    [0x51#8, 0x50#8, 0x49#8, 0x47#8, 0x53#8, 0xB7#8, 0xA9#8, 0x0D#8]

/-- R89: the TX operation emits the frame of its code, in wire order, as TXD items, and beside the REG items of the RDREG
commands that may stand between nothing else. -/
def Obligations.TxOperationEmitsTheFrame : Prop :=
  ∀ (is : List Instr) (s : State) (rest : List HostInput),
    (∀ i ∈ is, i.wellFormed = true ∧ (isBystander i = true ∨ (txPayload i).isSome = true)) →
    s.pending = presented (.txStart :: (is ++ [.txEnd])) ++ rest →
    ∃ (t : State) (new : List Item), runSteps (is.length + 2) s = .next t ∧ t.pending = rest ∧ t.out = s.out ++ new ∧
      (new.filter fun item => item.kind != .reg) = (encodeFrame (is.filterMap txPayload)).map (Item.mk .txd) ∧
      t.mode = .idle ∧ t.acc = crcRaw (is.filterMap txPayload)

/-- R95, R101: the document's function succeeds exactly on a buffer that starts with the marker and ends with the terminator,
and otherwise fails with `MalformedFrame`. -/
def Obligations.StripFailsExactlyOnUnframedBuffers : Prop :=
  (∀ raw : List Byte, (∃ body, validateAndStrip raw = .ok body) ↔
    raw.head? = some 0x28#8 ∧ raw.getLast? = some 0x0D#8) ∧
  (∀ raw : List Byte, (¬ ∃ body, validateAndStrip raw = .ok body) → validateAndStrip raw = .error .malformedFrame) ∧
  validateAndStrip [] = .error .malformedFrame

/-- R96: the body between the marker and the last three bytes, whatever the two checksum bytes are. -/
def Obligations.StripReturnsTheInterior : Prop :=
  (∀ (body : List Byte) (hi lo : Byte), validateAndStrip ([0x28#8] ++ body ++ [hi, lo, 0x0D#8]) = .ok body) ∧
  (∀ raw body : List Byte, 4 ≤ raw.length → validateAndStrip raw = .ok body → body.length = raw.length - 4 ∧
    ∃ hi lo, raw = [0x28#8] ++ body ++ [hi, lo, 0x0D#8] ∧
      raw[raw.length - 3]? = some hi ∧ raw[raw.length - 2]? = some lo ∧ raw[raw.length - 1]? = some 0x0D#8)

/-- R97: buffers of one, two and three bytes. -/
def Obligations.ShortBuffersHaveTheEmptyBody : Prop :=
  (∀ b : Byte, validateAndStrip [b] = .error .malformedFrame) ∧
  (∀ raw : List Byte, raw = [0x28#8, 0x0D#8] ∨ (∃ x, raw = [0x28#8, x, 0x0D#8]) →
    validateAndStrip raw = .ok [] ∧ (validate raw false).2 = [] ∧ (validate raw true).2 = [] ∧
    (validate raw false).1.getLsbD 3 = false ∧ (validate raw true).1.getLsbD 3 = false ∧
    (validate raw false).1.getLsbD 0 = true ∧ (validate raw true).1.getLsbD 0 = false ∧
    (validate raw true).1.extractLsb' 6 2 = 0b10#2)

/-- R101 with R56: under enforcement the accepted buffers are exactly the well-formed response frames, and the body of one is
the body it was made of. -/
def Obligations.EnforcedAcceptanceIsExactlyTheResponseFrames : Prop :=
  ∀ raw : List Byte, (validate raw true).1.getLsbD 0 = true ↔
    ∃ body, raw = [0x28#8] ++ body ++ [(compute body).1, (compute body).2, 0x0D#8] ∧ (validate raw true).2 = body

/-- R107: stripping a stripped body fails, but for a body that is itself framed; and such bodies exist. -/
def Obligations.SecondStripFailsUnlessTheBodyIsFramed : Prop :=
  (∀ raw body : List Byte, validateAndStrip raw = .ok body →
    ¬ (body.head? = some 0x28#8 ∧ body.getLast? = some 0x0D#8) → validateAndStrip body = .error .malformedFrame) ∧
  validateAndStrip [0x54#8, 0x45#8, 0x53#8, 0x54#8] = .error .malformedFrame ∧
  (∃ raw : List Byte, validateAndStrip raw = .ok [0x28#8, 0x0D#8] ∧ validateAndStrip [0x28#8, 0x0D#8] = .ok [])

/-- R102: what the registers hold after the bytes of a buffer. -/
def Obligations.ReceivedBytesAreExtracted : Prop :=
  ∀ (raw : List Byte) (s : State) (rest : List HostInput),
    s.pending = presented (.rxStart :: raw.map .rxByte) ++ rest →
    ∃ t : State, runSteps (raw.length + 1) s = .next t ∧ t.pending = rest ∧ t.mode = .rx ∧
      t.rxn.val = min raw.length 4 ∧ t.mok = markerOk raw ∧
      t.dl0 = (if 1 ≤ raw.length then raw.getD (raw.length - 1) 0x00#8 else 0x00#8) ∧
      t.dl1 = (if 2 ≤ raw.length then raw.getD (raw.length - 2) 0x00#8 else 0x00#8) ∧
      t.dl2 = (if 3 ≤ raw.length then raw.getD (raw.length - 3) 0x00#8 else 0x00#8) ∧
      t.acc = (if 4 ≤ raw.length then crcRaw ((raw.take (raw.length - 3)).drop 1) else 0x0000#16)

/-- R103: the streaming validator is the buffer function: its BODY items are the body if the marker is right, and then its one
VERDICT item is the verdict, under the policy in force; NOP and RDREG may stand anywhere between. -/
def Obligations.RxOperationIsTheBufferFunction : Prop :=
  (∀ (is : List Instr) (s : State) (rest : List HostInput),
    (∀ i ∈ is, i.wellFormed = true ∧ (isObserver i = true ∨ (rxPayload i).isSome = true)) →
    s.pending = presented (.rxStart :: (is ++ [.rxEnd])) ++ rest →
    ∃ (t : State) (new : List Item), runSteps (is.length + 2) s = .next t ∧ t.pending = rest ∧ t.mode = .idle ∧
      t.out = s.out ++ new ∧
      (new.filter fun item => item.kind != .reg) =
        (if markerOk (is.filterMap rxPayload) then
          (validate (is.filterMap rxPayload) s.verify).2.map (Item.mk .body) else []) ++
        [⟨.verdict, (validate (is.filterMap rxPayload) s.verify).1⟩] ∧
      t.verdict = (validate (is.filterMap rxPayload) s.verify).1) ∧
  (∀ raw body : List Byte, validateAndStrip raw = .ok body ↔
    (validate raw false).1.getLsbD 0 = true ∧ (validate raw false).2 = body)

/-- R105: the operation from RX_START to RX_END emits some BODY item and ends in a verdict that does not accept exactly when the
marker is right, there are at least five bytes, and the terminator is wrong or (under enforcement) the checksum does not
match; NOP and RDREG may stand anywhere between. -/
def Obligations.BodyItemsAreRejectedExactlyThen : Prop :=
  ∀ (is : List Instr) (s : State) (rest : List HostInput),
    (∀ i ∈ is, i.wellFormed = true ∧ (isObserver i = true ∨ (rxPayload i).isSome = true)) →
    s.pending = presented (.rxStart :: (is ++ [.rxEnd])) ++ rest →
    let raw := is.filterMap rxPayload
    ∃ (t : State) (new : List Item) (v : Byte), runSteps (is.length + 2) s = .next t ∧
      t.out = s.out ++ new ++ [⟨.verdict, v⟩] ∧
      (((∃ item ∈ new, item.kind = .body) ∧ v.getLsbD 0 = false) ↔
        (raw.head? = some 0x28#8 ∧ 5 ≤ raw.length ∧
          (raw.getLast? ≠ some 0x0D#8 ∨ (s.verify = true ∧ checksumMatches raw = false))))

/-! ### The assembler -/

/-- R60: the pseudo-instructions' expansions, and the rule's example. -/
def Obligations.AssemblerExpandsThePseudoInstructions : Prop :=
  assemble "COMPUTE \"QPIGS\"".toList =
    some [0x1000#16, 0x1151#16, 0x1150#16, 0x1149#16, 0x1147#16, 0x1153#16, 0x1200#16] ∧
  (∀ bytes : List Byte,
    (Pseudo.crcStr bytes).expand = bytes.map .crcByte ∧ (Pseudo.txStr bytes).expand = bytes.map .txByte ∧
    (Pseudo.rxStr bytes).expand = bytes.map .rxByte ∧
    (Pseudo.compute bytes).expand = [.crcStart] ++ (Pseudo.crcStr bytes).expand ++ [.crcEnd] ∧
    (Pseudo.encode bytes).expand = [.txStart] ++ (Pseudo.txStr bytes).expand ++ [.txEnd] ∧
    (Pseudo.validate bytes).expand = [.rxStart] ++ (Pseudo.rxStr bytes).expand ++ [.rxEnd]) ∧
  (∀ v : Byte, (Pseudo.setverify v).expand = [.wrctrl v]) ∧
  Pseudo.rdacc.expand = [.rdreg 2#8, .rdreg 3#8] ∧ Pseudo.rdstatus.expand = [.rdreg 1#8]

/-- Whatever source text the assembler accepts, every word it writes is a legal command word. R59 does not say that an operand a
command does not admit is refused: that only well-formed commands are assembled is the model's choice
(notes/assumptions/12.md). -/
def Obligations.AssemblerWritesLegalWords : Prop :=
  ∀ (source : List Char) (words : List Word), assemble source = some words →
    ∀ cw ∈ words, ∃ i, decode cw = .ok i ∧ i.wellFormed = true
end

