-- ==== Sys2Proof/Laws/Decode.lean ====
section
/-! SUPPORT. The decoder on a word written as `OP` above `D` (R45): `decode_append` says once which command or which error it
answers, so that no later proof unfolds the table. -/

namespace Sys2Proof

@[simp] theorem opField_append (op d : Byte) : opField (op ++ d) = op := by
  apply BitVec.eq_of_getLsbD_eq
  intro i hi
  simp only [opField, BitVec.getLsbD_append, BitVec.getLsbD_extractLsb']
  simp [hi]

@[simp] theorem dField_append (op d : Byte) : dField (op ++ d) = d := by
  apply BitVec.eq_of_getLsbD_eq
  intro i hi
  simp only [dField, BitVec.getLsbD_append, BitVec.getLsbD_extractLsb']
  simp [hi]

/-- Every command word is its `OP` field above its `D` field. -/
theorem word_eq_append (cw : Word) : opField cw ++ dField cw = cw := by
  apply BitVec.eq_of_getLsbD_eq
  intro i hi
  simp only [opField, dField, BitVec.getLsbD_append, BitVec.getLsbD_extractLsb']
  by_cases h : i < 8
  · simp [h]
  · have h2 : i - 8 < 8 := by omega
    have h3 : 8 + (i - 8) = i := by omega
    simp [h, h2, h3]

/-- Two words are equal exactly when both fields are. -/
theorem append_inj (op d op' d' : Byte) : (op ++ d = op' ++ d') ↔ (op = op' ∧ d = d') := by
  constructor
  · intro h
    exact ⟨by simpa using congrArg opField h, by simpa using congrArg dField h⟩
  · rintro ⟨rfl, rfl⟩; rfl

/-- R75, R87, R99, R116, R117 write a word as its `OP` word plus the operand. -/
theorem append_zero_add (op d : Byte) : (op ++ 0x00#8 : Word) + d.zeroExtend 16 = op ++ d := by
  apply BitVec.eq_of_toNat_eq
  have h0 : (op ++ 0x00#8 : Word).toNat = op.toNat <<< 8 ||| (0x00#8).toNat := BitVec.toNat_append op 0x00#8
  have h1 : (op ++ d : Word).toNat = op.toNat <<< 8 ||| d.toNat := BitVec.toNat_append op d
  have hd := d.isLt
  have ho := op.isLt
  rw [BitVec.toNat_add, h0, h1, ← Nat.shiftLeft_add_eq_or_of_lt hd]
  simp [Nat.shiftLeft_eq]
  omega

/-- A mask acts on the two fields by itself. -/
theorem and_append_fields (op d m n : Byte) : (op ++ d : Word) &&& (m ++ n) = (op &&& m) ++ (d &&& n) := by
  apply BitVec.eq_of_getLsbD_eq
  intro i hi
  simp only [BitVec.getLsbD_and, BitVec.getLsbD_append]
  split <;> simp

/-- A row of the table whose mask fixes `OP` and the bits `dMask` of `D`. -/
theorem fits_append (name : String) (build : Byte → Instr) (opMatch dMatch dMask op d : Byte) :
    (OpcodeRow.mk name (opMatch ++ dMatch) (0xFF#8 ++ dMask) build).fits (op ++ d)
      = (op == opMatch && (d &&& dMask) == dMatch) := by
  have h : op &&& 0xFF#8 = op := BitVec.and_allOnes
  rw [Bool.eq_iff_iff]
  simp only [OpcodeRow.fits, and_append_fields, h, beq_iff_eq, append_inj, Bool.and_eq_true]

/-- R47's masks over `D`: the byte must be zero, may be anything, names one of eight registers, or is 0 or 1. -/
theorem mask_all (d : Byte) : ((d &&& 0xFF#8) == 0x00#8) = decide (d = 0x00#8) := by
  rw [show d &&& 0xFF#8 = d from BitVec.and_allOnes]; rfl

theorem mask_none (d : Byte) : ((d &&& 0x00#8) == 0x00#8) = true := by
  rw [BitVec.and_zero]; rfl

theorem mask_register (d : Byte) : ((d &&& 0xF8#8) == 0x00#8) = decide (d.toNat ≤ 7) := by
  revert d; decide

theorem mask_ctrl (d : Byte) : ((d &&& 0xFE#8) == 0x00#8) = decide (d.toNat ≤ 1) := by
  revert d; decide

/-- The table with its words written as `OP` above `D`. -/
theorem opcodeRows_eq : opcodeRows = [
    ⟨"NOP", 0x00#8 ++ 0x00#8, 0xFF#8 ++ 0xFF#8, fun _ => .nop⟩,
    ⟨"CRC_START", 0x10#8 ++ 0x00#8, 0xFF#8 ++ 0xFF#8, fun _ => .crcStart⟩,
    ⟨"CRC_BYTE", 0x11#8 ++ 0x00#8, 0xFF#8 ++ 0x00#8, .crcByte⟩,
    ⟨"CRC_END", 0x12#8 ++ 0x00#8, 0xFF#8 ++ 0xFF#8, fun _ => .crcEnd⟩,
    ⟨"TX_START", 0x20#8 ++ 0x00#8, 0xFF#8 ++ 0xFF#8, fun _ => .txStart⟩,
    ⟨"TX_BYTE", 0x21#8 ++ 0x00#8, 0xFF#8 ++ 0x00#8, .txByte⟩,
    ⟨"TX_END", 0x22#8 ++ 0x00#8, 0xFF#8 ++ 0xFF#8, fun _ => .txEnd⟩,
    ⟨"RX_START", 0x30#8 ++ 0x00#8, 0xFF#8 ++ 0xFF#8, fun _ => .rxStart⟩,
    ⟨"RX_BYTE", 0x31#8 ++ 0x00#8, 0xFF#8 ++ 0x00#8, .rxByte⟩,
    ⟨"RX_END", 0x32#8 ++ 0x00#8, 0xFF#8 ++ 0xFF#8, fun _ => .rxEnd⟩,
    ⟨"RDREG", 0x40#8 ++ 0x00#8, 0xFF#8 ++ 0xF8#8, .rdreg⟩,
    ⟨"WRCTRL", 0x41#8 ++ 0x00#8, 0xFF#8 ++ 0xFE#8, .wrctrl⟩] := rfl

/-- What the decoder answers on every word, by its two fields. -/
theorem decode_append (op d : Byte) : decode (op ++ d) =
    if op = 0x00#8 then (if d = 0x00#8 then .ok .nop else .error .operandNotZero)
    else if op = 0x10#8 then (if d = 0x00#8 then .ok .crcStart else .error .operandNotZero)
    else if op = 0x11#8 then .ok (.crcByte d)
    else if op = 0x12#8 then (if d = 0x00#8 then .ok .crcEnd else .error .operandNotZero)
    else if op = 0x20#8 then (if d = 0x00#8 then .ok .txStart else .error .operandNotZero)
    else if op = 0x21#8 then .ok (.txByte d)
    else if op = 0x22#8 then (if d = 0x00#8 then .ok .txEnd else .error .operandNotZero)
    else if op = 0x30#8 then (if d = 0x00#8 then .ok .rxStart else .error .operandNotZero)
    else if op = 0x31#8 then .ok (.rxByte d)
    else if op = 0x32#8 then (if d = 0x00#8 then .ok .rxEnd else .error .operandNotZero)
    else if op = 0x40#8 then (if d.toNat ≤ 7 then .ok (.rdreg d) else .error .noSuchRegister)
    else if op = 0x41#8 then (if d.toNat ≤ 1 then .ok (.wrctrl d) else .error .noSuchCtrlBit)
    else .error .unknownOp := by
  rw [decode, opcodeRows_eq]
  simp only [List.find?_cons, List.find?_nil, fits_append, mask_all, mask_none, mask_register, mask_ctrl, whyIllegal,
    opField_append, dField_append, Bool.and_true]
  by_cases hop : op ∈ [0x00#8, 0x10#8, 0x11#8, 0x12#8, 0x20#8, 0x21#8, 0x22#8, 0x30#8, 0x31#8, 0x32#8, 0x40#8, 0x41#8]
  · simp only [List.mem_cons, List.not_mem_nil, or_false] at hop
    rcases hop with rfl | rfl | rfl | rfl | rfl | rfl | rfl | rfl | rfl | rfl | rfl | rfl <;>
      by_cases h0 : d = 0x00#8 <;> by_cases h7 : d.toNat ≤ 7 <;> by_cases h1 : d.toNat ≤ 1 <;> simp [h0, h7, h1]
  · simp only [List.mem_cons, List.not_mem_nil, or_false, not_or] at hop
    simp only [beq_eq_false_iff_ne.mpr, hop, ne_eq, not_false_eq_true, Bool.false_and, if_false]
    simp [hop]

end Sys2Proof
end

