-- ==== Sys2Proof/Laws/Flags.lean ====
section
/-! SUPPORT. The fields of the verdict byte, each said once (R53), and the arithmetic of avoidance (R70). -/

namespace Sys2Proof.Machine

@[simp] theorem verdictByte_accept (m t f c v : Bool) : (verdictByte m t f c v)[0] = (m && t && (!v || c)) := by
  revert m t f c v; decide

@[simp] theorem verdictByte_marker (m t f c v : Bool) : (verdictByte m t f c v)[1] = m := by
  revert m t f c v; decide

@[simp] theorem verdictByte_term (m t f c v : Bool) : (verdictByte m t f c v)[2] = t := by
  revert m t f c v; decide

@[simp] theorem verdictByte_full (m t f c v : Bool) : (verdictByte m t f c v)[3] = f := by
  revert m t f c v; decide

@[simp] theorem verdictByte_match (m t f c v : Bool) : (verdictByte m t f c v)[4] = c := by
  revert m t f c v; decide

@[simp] theorem verdictByte_verify (m t f c v : Bool) : (verdictByte m t f c v)[5] = v := by
  revert m t f c v; decide

@[simp] theorem verdictByte_class (m t f c v : Bool) :
    (verdictByte m t f c v).extractLsb' 6 2 = classCode (frameError (m && t) c v) := by
  revert m t f c v; decide

/-- Whatever the tests say, the verdict meets the relations of R26. -/
theorem verdictWf_verdictByte (m t f c v : Bool) : verdictWf (verdictByte m t f c v) = true := by
  revert m t f c v; decide

/-- An adjusted byte is never reserved. -/
theorem adj_not_reserved (b : Byte) : adj b ∉ Config.reserved := by
  revert b; decide

/-- A byte that is not reserved is not adjusted. -/
theorem adj_of_not_reserved {b : Byte} (h : b ∉ Config.reserved) : adj b = b := by simp [adj, h]

/-- A zero byte leaves a zero accumulator at zero. -/
theorem absorb_zero : absorb 0x0000#16 0x00#8 = 0x0000#16 := by decide

end Sys2Proof.Machine
end

