-- ==== Sys2Proof/Laws/State.lean ====
section
/-! SUPPORT. One lemma per field per update of the state, so that no later proof unfolds a record update. -/

namespace Sys2Proof.Machine.State

@[simp] theorem setAcc_acc (a : Word) (s : State) : (s.setAcc a).acc = a := rfl
@[simp] theorem setAcc_mode (a : Word) (s : State) : (s.setAcc a).mode = s.mode := rfl
@[simp] theorem setAcc_rxn (a : Word) (s : State) : (s.setAcc a).rxn = s.rxn := rfl
@[simp] theorem setAcc_mok (a : Word) (s : State) : (s.setAcc a).mok = s.mok := rfl
@[simp] theorem setAcc_dl2 (a : Word) (s : State) : (s.setAcc a).dl2 = s.dl2 := rfl
@[simp] theorem setAcc_dl1 (a : Word) (s : State) : (s.setAcc a).dl1 = s.dl1 := rfl
@[simp] theorem setAcc_dl0 (a : Word) (s : State) : (s.setAcc a).dl0 = s.dl0 := rfl
@[simp] theorem setAcc_verify (a : Word) (s : State) : (s.setAcc a).verify = s.verify := rfl
@[simp] theorem setAcc_ill (a : Word) (s : State) : (s.setAcc a).ill = s.ill := rfl
@[simp] theorem setAcc_seq (a : Word) (s : State) : (s.setAcc a).seq = s.seq := rfl
@[simp] theorem setAcc_verdict (a : Word) (s : State) : (s.setAcc a).verdict = s.verdict := rfl
@[simp] theorem setAcc_pending (a : Word) (s : State) : (s.setAcc a).pending = s.pending := rfl
@[simp] theorem setAcc_out (a : Word) (s : State) : (s.setAcc a).out = s.out := rfl

@[simp] theorem setMode_acc (m : Mode) (s : State) : (s.setMode m).acc = s.acc := rfl
@[simp] theorem setMode_mode (m : Mode) (s : State) : (s.setMode m).mode = m := rfl
@[simp] theorem setMode_rxn (m : Mode) (s : State) : (s.setMode m).rxn = s.rxn := rfl
@[simp] theorem setMode_mok (m : Mode) (s : State) : (s.setMode m).mok = s.mok := rfl
@[simp] theorem setMode_dl2 (m : Mode) (s : State) : (s.setMode m).dl2 = s.dl2 := rfl
@[simp] theorem setMode_dl1 (m : Mode) (s : State) : (s.setMode m).dl1 = s.dl1 := rfl
@[simp] theorem setMode_dl0 (m : Mode) (s : State) : (s.setMode m).dl0 = s.dl0 := rfl
@[simp] theorem setMode_verify (m : Mode) (s : State) : (s.setMode m).verify = s.verify := rfl
@[simp] theorem setMode_ill (m : Mode) (s : State) : (s.setMode m).ill = s.ill := rfl
@[simp] theorem setMode_seq (m : Mode) (s : State) : (s.setMode m).seq = s.seq := rfl
@[simp] theorem setMode_verdict (m : Mode) (s : State) : (s.setMode m).verdict = s.verdict := rfl
@[simp] theorem setMode_pending (m : Mode) (s : State) : (s.setMode m).pending = s.pending := rfl
@[simp] theorem setMode_out (m : Mode) (s : State) : (s.setMode m).out = s.out := rfl

@[simp] theorem setRxn_acc (n : Fin 5) (s : State) : (s.setRxn n).acc = s.acc := rfl
@[simp] theorem setRxn_mode (n : Fin 5) (s : State) : (s.setRxn n).mode = s.mode := rfl
@[simp] theorem setRxn_rxn (n : Fin 5) (s : State) : (s.setRxn n).rxn = n := rfl
@[simp] theorem setRxn_mok (n : Fin 5) (s : State) : (s.setRxn n).mok = s.mok := rfl
@[simp] theorem setRxn_dl2 (n : Fin 5) (s : State) : (s.setRxn n).dl2 = s.dl2 := rfl
@[simp] theorem setRxn_dl1 (n : Fin 5) (s : State) : (s.setRxn n).dl1 = s.dl1 := rfl
@[simp] theorem setRxn_dl0 (n : Fin 5) (s : State) : (s.setRxn n).dl0 = s.dl0 := rfl
@[simp] theorem setRxn_verify (n : Fin 5) (s : State) : (s.setRxn n).verify = s.verify := rfl
@[simp] theorem setRxn_ill (n : Fin 5) (s : State) : (s.setRxn n).ill = s.ill := rfl
@[simp] theorem setRxn_seq (n : Fin 5) (s : State) : (s.setRxn n).seq = s.seq := rfl
@[simp] theorem setRxn_verdict (n : Fin 5) (s : State) : (s.setRxn n).verdict = s.verdict := rfl
@[simp] theorem setRxn_pending (n : Fin 5) (s : State) : (s.setRxn n).pending = s.pending := rfl
@[simp] theorem setRxn_out (n : Fin 5) (s : State) : (s.setRxn n).out = s.out := rfl

@[simp] theorem setMok_acc (b : Bool) (s : State) : (s.setMok b).acc = s.acc := rfl
@[simp] theorem setMok_mode (b : Bool) (s : State) : (s.setMok b).mode = s.mode := rfl
@[simp] theorem setMok_rxn (b : Bool) (s : State) : (s.setMok b).rxn = s.rxn := rfl
@[simp] theorem setMok_mok (b : Bool) (s : State) : (s.setMok b).mok = b := rfl
@[simp] theorem setMok_dl2 (b : Bool) (s : State) : (s.setMok b).dl2 = s.dl2 := rfl
@[simp] theorem setMok_dl1 (b : Bool) (s : State) : (s.setMok b).dl1 = s.dl1 := rfl
@[simp] theorem setMok_dl0 (b : Bool) (s : State) : (s.setMok b).dl0 = s.dl0 := rfl
@[simp] theorem setMok_verify (b : Bool) (s : State) : (s.setMok b).verify = s.verify := rfl
@[simp] theorem setMok_ill (b : Bool) (s : State) : (s.setMok b).ill = s.ill := rfl
@[simp] theorem setMok_seq (b : Bool) (s : State) : (s.setMok b).seq = s.seq := rfl
@[simp] theorem setMok_verdict (b : Bool) (s : State) : (s.setMok b).verdict = s.verdict := rfl
@[simp] theorem setMok_pending (b : Bool) (s : State) : (s.setMok b).pending = s.pending := rfl
@[simp] theorem setMok_out (b : Bool) (s : State) : (s.setMok b).out = s.out := rfl

@[simp] theorem setDelay_acc (d2 d1 d0 : Byte) (s : State) : (s.setDelay d2 d1 d0).acc = s.acc := rfl
@[simp] theorem setDelay_mode (d2 d1 d0 : Byte) (s : State) : (s.setDelay d2 d1 d0).mode = s.mode := rfl
@[simp] theorem setDelay_rxn (d2 d1 d0 : Byte) (s : State) : (s.setDelay d2 d1 d0).rxn = s.rxn := rfl
@[simp] theorem setDelay_mok (d2 d1 d0 : Byte) (s : State) : (s.setDelay d2 d1 d0).mok = s.mok := rfl
@[simp] theorem setDelay_dl2 (d2 d1 d0 : Byte) (s : State) : (s.setDelay d2 d1 d0).dl2 = d2 := rfl
@[simp] theorem setDelay_dl1 (d2 d1 d0 : Byte) (s : State) : (s.setDelay d2 d1 d0).dl1 = d1 := rfl
@[simp] theorem setDelay_dl0 (d2 d1 d0 : Byte) (s : State) : (s.setDelay d2 d1 d0).dl0 = d0 := rfl
@[simp] theorem setDelay_verify (d2 d1 d0 : Byte) (s : State) : (s.setDelay d2 d1 d0).verify = s.verify := rfl
@[simp] theorem setDelay_ill (d2 d1 d0 : Byte) (s : State) : (s.setDelay d2 d1 d0).ill = s.ill := rfl
@[simp] theorem setDelay_seq (d2 d1 d0 : Byte) (s : State) : (s.setDelay d2 d1 d0).seq = s.seq := rfl
@[simp] theorem setDelay_verdict (d2 d1 d0 : Byte) (s : State) : (s.setDelay d2 d1 d0).verdict = s.verdict := rfl
@[simp] theorem setDelay_pending (d2 d1 d0 : Byte) (s : State) : (s.setDelay d2 d1 d0).pending = s.pending := rfl
@[simp] theorem setDelay_out (d2 d1 d0 : Byte) (s : State) : (s.setDelay d2 d1 d0).out = s.out := rfl

@[simp] theorem setVerify_acc (b : Bool) (s : State) : (s.setVerify b).acc = s.acc := rfl
@[simp] theorem setVerify_mode (b : Bool) (s : State) : (s.setVerify b).mode = s.mode := rfl
@[simp] theorem setVerify_rxn (b : Bool) (s : State) : (s.setVerify b).rxn = s.rxn := rfl
@[simp] theorem setVerify_mok (b : Bool) (s : State) : (s.setVerify b).mok = s.mok := rfl
@[simp] theorem setVerify_dl2 (b : Bool) (s : State) : (s.setVerify b).dl2 = s.dl2 := rfl
@[simp] theorem setVerify_dl1 (b : Bool) (s : State) : (s.setVerify b).dl1 = s.dl1 := rfl
@[simp] theorem setVerify_dl0 (b : Bool) (s : State) : (s.setVerify b).dl0 = s.dl0 := rfl
@[simp] theorem setVerify_verify (b : Bool) (s : State) : (s.setVerify b).verify = b := rfl
@[simp] theorem setVerify_ill (b : Bool) (s : State) : (s.setVerify b).ill = s.ill := rfl
@[simp] theorem setVerify_seq (b : Bool) (s : State) : (s.setVerify b).seq = s.seq := rfl
@[simp] theorem setVerify_verdict (b : Bool) (s : State) : (s.setVerify b).verdict = s.verdict := rfl
@[simp] theorem setVerify_pending (b : Bool) (s : State) : (s.setVerify b).pending = s.pending := rfl
@[simp] theorem setVerify_out (b : Bool) (s : State) : (s.setVerify b).out = s.out := rfl

@[simp] theorem setVerdict_acc (v : Byte) (s : State) : (s.setVerdict v).acc = s.acc := rfl
@[simp] theorem setVerdict_mode (v : Byte) (s : State) : (s.setVerdict v).mode = s.mode := rfl
@[simp] theorem setVerdict_rxn (v : Byte) (s : State) : (s.setVerdict v).rxn = s.rxn := rfl
@[simp] theorem setVerdict_mok (v : Byte) (s : State) : (s.setVerdict v).mok = s.mok := rfl
@[simp] theorem setVerdict_dl2 (v : Byte) (s : State) : (s.setVerdict v).dl2 = s.dl2 := rfl
@[simp] theorem setVerdict_dl1 (v : Byte) (s : State) : (s.setVerdict v).dl1 = s.dl1 := rfl
@[simp] theorem setVerdict_dl0 (v : Byte) (s : State) : (s.setVerdict v).dl0 = s.dl0 := rfl
@[simp] theorem setVerdict_verify (v : Byte) (s : State) : (s.setVerdict v).verify = s.verify := rfl
@[simp] theorem setVerdict_ill (v : Byte) (s : State) : (s.setVerdict v).ill = s.ill := rfl
@[simp] theorem setVerdict_seq (v : Byte) (s : State) : (s.setVerdict v).seq = s.seq := rfl
@[simp] theorem setVerdict_verdict (v : Byte) (s : State) : (s.setVerdict v).verdict = v := rfl
@[simp] theorem setVerdict_pending (v : Byte) (s : State) : (s.setVerdict v).pending = s.pending := rfl
@[simp] theorem setVerdict_out (v : Byte) (s : State) : (s.setVerdict v).out = s.out := rfl

@[simp] theorem setPending_acc (p : List HostInput) (s : State) : (s.setPending p).acc = s.acc := rfl
@[simp] theorem setPending_mode (p : List HostInput) (s : State) : (s.setPending p).mode = s.mode := rfl
@[simp] theorem setPending_rxn (p : List HostInput) (s : State) : (s.setPending p).rxn = s.rxn := rfl
@[simp] theorem setPending_mok (p : List HostInput) (s : State) : (s.setPending p).mok = s.mok := rfl
@[simp] theorem setPending_dl2 (p : List HostInput) (s : State) : (s.setPending p).dl2 = s.dl2 := rfl
@[simp] theorem setPending_dl1 (p : List HostInput) (s : State) : (s.setPending p).dl1 = s.dl1 := rfl
@[simp] theorem setPending_dl0 (p : List HostInput) (s : State) : (s.setPending p).dl0 = s.dl0 := rfl
@[simp] theorem setPending_verify (p : List HostInput) (s : State) : (s.setPending p).verify = s.verify := rfl
@[simp] theorem setPending_ill (p : List HostInput) (s : State) : (s.setPending p).ill = s.ill := rfl
@[simp] theorem setPending_seq (p : List HostInput) (s : State) : (s.setPending p).seq = s.seq := rfl
@[simp] theorem setPending_verdict (p : List HostInput) (s : State) : (s.setPending p).verdict = s.verdict := rfl
@[simp] theorem setPending_pending (p : List HostInput) (s : State) : (s.setPending p).pending = p := rfl
@[simp] theorem setPending_out (p : List HostInput) (s : State) : (s.setPending p).out = s.out := rfl

@[simp] theorem emit_acc (k : Kind) (v : Byte) (s : State) : (s.emit k v).acc = s.acc := rfl
@[simp] theorem emit_mode (k : Kind) (v : Byte) (s : State) : (s.emit k v).mode = s.mode := rfl
@[simp] theorem emit_rxn (k : Kind) (v : Byte) (s : State) : (s.emit k v).rxn = s.rxn := rfl
@[simp] theorem emit_mok (k : Kind) (v : Byte) (s : State) : (s.emit k v).mok = s.mok := rfl
@[simp] theorem emit_dl2 (k : Kind) (v : Byte) (s : State) : (s.emit k v).dl2 = s.dl2 := rfl
@[simp] theorem emit_dl1 (k : Kind) (v : Byte) (s : State) : (s.emit k v).dl1 = s.dl1 := rfl
@[simp] theorem emit_dl0 (k : Kind) (v : Byte) (s : State) : (s.emit k v).dl0 = s.dl0 := rfl
@[simp] theorem emit_verify (k : Kind) (v : Byte) (s : State) : (s.emit k v).verify = s.verify := rfl
@[simp] theorem emit_ill (k : Kind) (v : Byte) (s : State) : (s.emit k v).ill = s.ill := rfl
@[simp] theorem emit_seq (k : Kind) (v : Byte) (s : State) : (s.emit k v).seq = s.seq := rfl
@[simp] theorem emit_verdict (k : Kind) (v : Byte) (s : State) : (s.emit k v).verdict = s.verdict := rfl
@[simp] theorem emit_pending (k : Kind) (v : Byte) (s : State) : (s.emit k v).pending = s.pending := rfl
@[simp] theorem emit_out (k : Kind) (v : Byte) (s : State) : (s.emit k v).out = s.out ++ [⟨k, v⟩] := rfl

@[simp] theorem setSticky_acc (f : FaultKind) (s : State) : (s.setSticky f).acc = s.acc := by cases f <;> rfl
@[simp] theorem setSticky_mode (f : FaultKind) (s : State) : (s.setSticky f).mode = s.mode := by cases f <;> rfl
@[simp] theorem setSticky_rxn (f : FaultKind) (s : State) : (s.setSticky f).rxn = s.rxn := by cases f <;> rfl
@[simp] theorem setSticky_mok (f : FaultKind) (s : State) : (s.setSticky f).mok = s.mok := by cases f <;> rfl
@[simp] theorem setSticky_dl2 (f : FaultKind) (s : State) : (s.setSticky f).dl2 = s.dl2 := by cases f <;> rfl
@[simp] theorem setSticky_dl1 (f : FaultKind) (s : State) : (s.setSticky f).dl1 = s.dl1 := by cases f <;> rfl
@[simp] theorem setSticky_dl0 (f : FaultKind) (s : State) : (s.setSticky f).dl0 = s.dl0 := by cases f <;> rfl
@[simp] theorem setSticky_verify (f : FaultKind) (s : State) : (s.setSticky f).verify = s.verify := by cases f <;> rfl
@[simp] theorem setSticky_ill (f : FaultKind) (s : State) : (s.setSticky f).ill = (decide (f = .ill) || s.ill) := by
  cases f <;> simp [setSticky]
@[simp] theorem setSticky_seq (f : FaultKind) (s : State) : (s.setSticky f).seq = (decide (f = .seq) || s.seq) := by
  cases f <;> simp [setSticky]
@[simp] theorem setSticky_verdict (f : FaultKind) (s : State) : (s.setSticky f).verdict = s.verdict := by cases f <;> rfl
@[simp] theorem setSticky_pending (f : FaultKind) (s : State) : (s.setSticky f).pending = s.pending := by cases f <;> rfl
@[simp] theorem setSticky_out (f : FaultKind) (s : State) : (s.setSticky f).out = s.out := by cases f <;> rfl

end Sys2Proof.Machine.State
end

