-- ==== Sys2Proof/Laws/Ops.lean ====
section
/-! SUPPORT. What each shared operation does, said once: taking a fault (R128), the mode check (R46), the reset event (R145),
the command port (R13), and a byte leaving the delay line (R99). -/

namespace Sys2Proof.Machine

/-- An illegal word's fault is the record update R128 spells out. -/
@[simp] theorem takeFault_ill (s : State) : takeFault .ill s = afterIll s := rfl

/-- A fault out of sequence is the record update R128 spells out. -/
@[simp] theorem takeFault_seq (s : State) : takeFault .seq s = afterSeq s := rfl

@[simp] theorem afterIll_acc (s : State) : (afterIll s).acc = s.acc := rfl
@[simp] theorem afterIll_mode (s : State) : (afterIll s).mode = s.mode := rfl
@[simp] theorem afterIll_rxn (s : State) : (afterIll s).rxn = s.rxn := rfl
@[simp] theorem afterIll_mok (s : State) : (afterIll s).mok = s.mok := rfl
@[simp] theorem afterIll_dl2 (s : State) : (afterIll s).dl2 = s.dl2 := rfl
@[simp] theorem afterIll_dl1 (s : State) : (afterIll s).dl1 = s.dl1 := rfl
@[simp] theorem afterIll_dl0 (s : State) : (afterIll s).dl0 = s.dl0 := rfl
@[simp] theorem afterIll_verify (s : State) : (afterIll s).verify = s.verify := rfl
@[simp] theorem afterIll_ill (s : State) : (afterIll s).ill = true := rfl
@[simp] theorem afterIll_seq (s : State) : (afterIll s).seq = s.seq := rfl
@[simp] theorem afterIll_verdict (s : State) : (afterIll s).verdict = s.verdict := rfl
@[simp] theorem afterIll_pending (s : State) : (afterIll s).pending = s.pending := rfl
@[simp] theorem afterIll_out (s : State) : (afterIll s).out = s.out ++ [⟨.err, 0x01#8⟩] := rfl

@[simp] theorem afterSeq_acc (s : State) : (afterSeq s).acc = s.acc := rfl
@[simp] theorem afterSeq_mode (s : State) : (afterSeq s).mode = s.mode := rfl
@[simp] theorem afterSeq_rxn (s : State) : (afterSeq s).rxn = s.rxn := rfl
@[simp] theorem afterSeq_mok (s : State) : (afterSeq s).mok = s.mok := rfl
@[simp] theorem afterSeq_dl2 (s : State) : (afterSeq s).dl2 = s.dl2 := rfl
@[simp] theorem afterSeq_dl1 (s : State) : (afterSeq s).dl1 = s.dl1 := rfl
@[simp] theorem afterSeq_dl0 (s : State) : (afterSeq s).dl0 = s.dl0 := rfl
@[simp] theorem afterSeq_verify (s : State) : (afterSeq s).verify = s.verify := rfl
@[simp] theorem afterSeq_ill (s : State) : (afterSeq s).ill = s.ill := rfl
@[simp] theorem afterSeq_seq (s : State) : (afterSeq s).seq = true := rfl
@[simp] theorem afterSeq_verdict (s : State) : (afterSeq s).verdict = s.verdict := rfl
@[simp] theorem afterSeq_pending (s : State) : (afterSeq s).pending = s.pending := rfl
@[simp] theorem afterSeq_out (s : State) : (afterSeq s).out = s.out ++ [⟨.err, 0x02#8⟩] := rfl

@[simp] theorem resetEvent_acc (s : State) : (resetEvent s).acc = State.reset.acc := rfl
@[simp] theorem resetEvent_mode (s : State) : (resetEvent s).mode = State.reset.mode := rfl
@[simp] theorem resetEvent_rxn (s : State) : (resetEvent s).rxn = State.reset.rxn := rfl
@[simp] theorem resetEvent_mok (s : State) : (resetEvent s).mok = State.reset.mok := rfl
@[simp] theorem resetEvent_dl2 (s : State) : (resetEvent s).dl2 = State.reset.dl2 := rfl
@[simp] theorem resetEvent_dl1 (s : State) : (resetEvent s).dl1 = State.reset.dl1 := rfl
@[simp] theorem resetEvent_dl0 (s : State) : (resetEvent s).dl0 = State.reset.dl0 := rfl
@[simp] theorem resetEvent_verify (s : State) : (resetEvent s).verify = State.reset.verify := rfl
@[simp] theorem resetEvent_ill (s : State) : (resetEvent s).ill = State.reset.ill := rfl
@[simp] theorem resetEvent_seq (s : State) : (resetEvent s).seq = State.reset.seq := rfl
@[simp] theorem resetEvent_verdict (s : State) : (resetEvent s).verdict = State.reset.verdict := rfl
@[simp] theorem resetEvent_pending (s : State) : (resetEvent s).pending = s.pending := rfl
@[simp] theorem resetEvent_out (s : State) : (resetEvent s).out = s.out := rfl

/-- In the mode it requires a command has its effect. -/
theorem inMode_eq {m : Mode} {effect : State → State} {s : State} (h : s.mode = m) : inMode m effect s = effect s := by
  simp [inMode, h]

/-- In any other mode it faults SEQ and does nothing else. -/
theorem inMode_ne {m : Mode} {effect : State → State} {s : State} (h : s.mode ≠ m) :
    inMode m effect s = afterSeq s := by
  simp [inMode, h]

/-- The two cases of the mode check. -/
theorem inMode_cases (m : Mode) (effect : State → State) (s : State) :
    (s.mode = m ∧ inMode m effect s = effect s) ∨ (s.mode ≠ m ∧ inMode m effect s = afterSeq s) := by
  by_cases h : s.mode = m
  · exact .inl ⟨h, inMode_eq h⟩
  · exact .inr ⟨h, inMode_ne h⟩

theorem nextInput_nil {s : State} (h : s.pending = []) : nextInput s = none := by simp [nextInput, h]

theorem nextInput_cons {s : State} {input : HostInput} {rest : List HostInput} (h : s.pending = input :: rest) :
    nextInput s = some (input, s.setPending rest) := by simp [nextInput, h]

@[simp] theorem present_pending (cw : Word) (s : State) : (present cw s).pending = .word cw :: s.pending := rfl

/-- Before four bytes are in, nothing leaves the delay line. -/
theorem leaveDelayLine_short {s : State} (h : s.rxn ≠ 4) : leaveDelayLine s = s := by simp [leaveDelayLine, h]

/-- Once four are in, `DL2` is absorbed, and emitted if the marker was right. -/
theorem leaveDelayLine_full {s : State} (h : s.rxn = 4) :
    leaveDelayLine s =
      { s with acc := absorb s.acc s.dl2, out := s.out ++ (if s.mok then [⟨.body, s.dl2⟩] else []) } := by
  cases hm : s.mok <;> simp [leaveDelayLine, h, hm, State.setAcc, State.emit]

@[simp] theorem leaveDelayLine_mode (s : State) : (leaveDelayLine s).mode = s.mode := by
  unfold leaveDelayLine; split_ifs <;> rfl
@[simp] theorem leaveDelayLine_rxn (s : State) : (leaveDelayLine s).rxn = s.rxn := by
  unfold leaveDelayLine; split_ifs <;> rfl
@[simp] theorem leaveDelayLine_mok (s : State) : (leaveDelayLine s).mok = s.mok := by
  unfold leaveDelayLine; split_ifs <;> rfl
@[simp] theorem leaveDelayLine_dl2 (s : State) : (leaveDelayLine s).dl2 = s.dl2 := by
  unfold leaveDelayLine; split_ifs <;> rfl
@[simp] theorem leaveDelayLine_dl1 (s : State) : (leaveDelayLine s).dl1 = s.dl1 := by
  unfold leaveDelayLine; split_ifs <;> rfl
@[simp] theorem leaveDelayLine_dl0 (s : State) : (leaveDelayLine s).dl0 = s.dl0 := by
  unfold leaveDelayLine; split_ifs <;> rfl
@[simp] theorem leaveDelayLine_verify (s : State) : (leaveDelayLine s).verify = s.verify := by
  unfold leaveDelayLine; split_ifs <;> rfl
@[simp] theorem leaveDelayLine_ill (s : State) : (leaveDelayLine s).ill = s.ill := by
  unfold leaveDelayLine; split_ifs <;> rfl
@[simp] theorem leaveDelayLine_seq (s : State) : (leaveDelayLine s).seq = s.seq := by
  unfold leaveDelayLine; split_ifs <;> rfl
@[simp] theorem leaveDelayLine_verdict (s : State) : (leaveDelayLine s).verdict = s.verdict := by
  unfold leaveDelayLine; split_ifs <;> rfl
@[simp] theorem leaveDelayLine_pending (s : State) : (leaveDelayLine s).pending = s.pending := by
  unfold leaveDelayLine; split_ifs <;> rfl

@[simp] theorem countByte_val (n : Fin 5) : (countByte n).val = min (n.val + 1) 4 := rfl

end Sys2Proof.Machine
end

