-- ==== Sys2Proof/Laws/Operands.lean ====
section
/-! SUPPORT. What the register space and the operand of WRCTRL answer, said once (R18, R20), and the two commands over them. -/

namespace Sys2Proof.Machine

/-- The numbers 0 to 7 exist. -/
theorem readReg_exists {r : Byte} (h : r.toNat ≤ 7) (s : State) : ∃ v, readReg r s = some v := by
  have : r.toNat = 0 ∨ r.toNat = 1 ∨ r.toNat = 2 ∨ r.toNat = 3 ∨ r.toNat = 4 ∨ r.toNat = 5 ∨ r.toNat = 6 ∨
      r.toNat = 7 := by omega
  rcases this with e | e | e | e | e | e | e | e <;> simp [readReg, e]

/-- The numbers 8 to 255 do not. -/
theorem readReg_none {r : Byte} (h : 7 < r.toNat) (s : State) : readReg r s = none := by
  unfold readReg
  split <;> first | omega | rfl

theorem ctrlOperand_some {v : Byte} (h : v.toNat ≤ 1) : ctrlOperand v = some (v.getLsbD 0) := by
  simp [ctrlOperand, h]

theorem ctrlOperand_none {v : Byte} (h : 1 < v.toNat) : ctrlOperand v = none := by
  simp [ctrlOperand, Nat.not_le.mpr h]

/-- RDREG emits one REG item or faults ILL, by its operand. -/
theorem execRdreg_cases (r : Byte) (s : State) :
    (r.toNat ≤ 7 ∧ ∃ v, readReg r s = some v ∧ execRdreg r s = .next (s.emit .reg v)) ∨
    (7 < r.toNat ∧ execRdreg r s = .next (afterIll s)) := by
  by_cases h : r.toNat ≤ 7
  · obtain ⟨v, hv⟩ := readReg_exists h s
    exact .inl ⟨h, v, hv, by simp [execRdreg, hv]⟩
  · have h : 7 < r.toNat := by omega
    exact .inr ⟨h, by simp [execRdreg, readReg_none h]⟩

/-- WRCTRL writes `VERIFY` or faults ILL, by its operand. -/
theorem execWrctrl_cases (v : Byte) (s : State) :
    (v.toNat ≤ 1 ∧ execWrctrl v s = .next (s.setVerify (v.getLsbD 0))) ∨
    (1 < v.toNat ∧ execWrctrl v s = .next (afterIll s)) := by
  by_cases h : v.toNat ≤ 1
  · exact .inl ⟨h, by simp [execWrctrl, ctrlOperand_some h]⟩
  · have h : 1 < v.toNat := by omega
    exact .inr ⟨h, by simp [execWrctrl, ctrlOperand_none h]⟩

end Sys2Proof.Machine
end

