-- ==== Sys2Proof/Laws/PerInstr.lean ====
section
/-! SUPPORT. A statement made per instruction: a command's word fits the row of R47 that has the command's mnemonic exactly when
the command is well-formed, and the row reads the command's operand back from it. -/

namespace Sys2Proof.Laws

/-- The mnemonic of R47. -/
def mnemonic : Instr → String
  | .nop => "NOP"
  | .crcStart => "CRC_START"
  | .crcByte _ => "CRC_BYTE"
  | .crcEnd => "CRC_END"
  | .txStart => "TX_START"
  | .txByte _ => "TX_BYTE"
  | .txEnd => "TX_END"
  | .rxStart => "RX_START"
  | .rxByte _ => "RX_BYTE"
  | .rxEnd => "RX_END"
  | .rdreg _ => "RDREG"
  | .wrctrl _ => "WRCTRL"

def RowFits.Statement (i : Instr) : Prop :=
  ∃ row ∈ opcodeRows, row.mnemonic = mnemonic i ∧ row.build (dField (encode i)) = i ∧
    row.fits (encode i) = i.wellFormed

theorem RowFits.nop : RowFits.Statement .nop := by
  unfold RowFits.Statement; decide

theorem RowFits.crcStart : RowFits.Statement .crcStart := by
  unfold RowFits.Statement; decide

theorem RowFits.crcByte (c : Byte) : RowFits.Statement (.crcByte c) :=
  ⟨⟨"CRC_BYTE", 0x1100#16, 0xFF00#16, .crcByte⟩, by simp [opcodeRows], rfl, by simp [encode],
    (fits_append _ _ 0x11#8 0x00#8 0x00#8 0x11#8 c).trans (by simp [Instr.wellFormed])⟩

theorem RowFits.crcEnd : RowFits.Statement .crcEnd := by
  unfold RowFits.Statement; decide

theorem RowFits.txStart : RowFits.Statement .txStart := by
  unfold RowFits.Statement; decide

theorem RowFits.txByte (c : Byte) : RowFits.Statement (.txByte c) :=
  ⟨⟨"TX_BYTE", 0x2100#16, 0xFF00#16, .txByte⟩, by simp [opcodeRows], rfl, by simp [encode],
    (fits_append _ _ 0x21#8 0x00#8 0x00#8 0x21#8 c).trans (by simp [Instr.wellFormed])⟩

theorem RowFits.txEnd : RowFits.Statement .txEnd := by
  unfold RowFits.Statement; decide

theorem RowFits.rxStart : RowFits.Statement .rxStart := by
  unfold RowFits.Statement; decide

theorem RowFits.rxByte (d : Byte) : RowFits.Statement (.rxByte d) :=
  ⟨⟨"RX_BYTE", 0x3100#16, 0xFF00#16, .rxByte⟩, by simp [opcodeRows], rfl, by simp [encode],
    (fits_append _ _ 0x31#8 0x00#8 0x00#8 0x31#8 d).trans (by simp [Instr.wellFormed])⟩

theorem RowFits.rxEnd : RowFits.Statement .rxEnd := by
  unfold RowFits.Statement; decide

theorem RowFits.rdreg (r : Byte) : RowFits.Statement (.rdreg r) :=
  ⟨⟨"RDREG", 0x4000#16, 0xFFF8#16, .rdreg⟩, by simp [opcodeRows], rfl, by simp [encode],
    (fits_append _ _ 0x40#8 0x00#8 0xF8#8 0x40#8 r).trans (by simp [Instr.wellFormed, mask_register])⟩

theorem RowFits.wrctrl (v : Byte) : RowFits.Statement (.wrctrl v) :=
  ⟨⟨"WRCTRL", 0x4100#16, 0xFFFE#16, .wrctrl⟩, by simp [opcodeRows], rfl, by simp [encode],
    (fits_append _ _ 0x41#8 0x00#8 0xFE#8 0x41#8 v).trans (by simp [Instr.wellFormed, mask_ctrl])⟩

end Sys2Proof.Laws
end

