-- ==== Sys2Proof/Laws/Safety.lean ====
section
/-! SUPPORT. The well-formedness predicate of R26 in the form proofs use, and what it depends on. -/

namespace Sys2Proof.Machine

theorem State.wf_iff (s : State) : s.wf = true ↔
    (s.mok = true → 1 ≤ s.rxn.val) ∧ (s.rxn.val < 3 → s.dl2 = 0x00#8) ∧ (s.rxn.val < 2 → s.dl1 = 0x00#8) ∧
    (s.rxn.val < 1 → s.dl0 = 0x00#8) ∧ verdictWf s.verdict = true := by
  simp only [State.wf, Bool.and_eq_true, Bool.or_eq_true, Bool.not_eq_true', decide_eq_true_eq, beq_iff_eq]
  constructor
  · rintro ⟨⟨⟨⟨h1, h2⟩, h3⟩, h4⟩, h5⟩
    refine ⟨fun h => ?_, fun h => ?_, fun h => ?_, fun h => ?_, h5⟩
    · rcases h1 with h1 | h1
      · rw [h] at h1; cases h1
      · exact h1
    · exact h2.resolve_left (by omega)
    · exact h3.resolve_left (by omega)
    · exact h4.resolve_left (by omega)
  · rintro ⟨h1, h2, h3, h4, h5⟩
    refine ⟨⟨⟨⟨?_, ?_⟩, ?_⟩, ?_⟩, h5⟩
    · cases hm : s.mok
      · exact .inl rfl
      · exact .inr (h1 hm)
    · by_cases h : s.rxn.val < 3
      · exact .inr (h2 h)
      · exact .inl (by omega)
    · by_cases h : s.rxn.val < 2
      · exact .inr (h3 h)
      · exact .inl (by omega)
    · by_cases h : s.rxn.val < 1
      · exact .inr (h4 h)
      · exact .inl (by omega)

/-- Only the frame registers and `VERDICT` matter to it. -/
theorem State.wf_of_frame_eq {s t : State} (h : s.wf = true) (h1 : t.rxn = s.rxn) (h2 : t.mok = s.mok)
    (h3 : t.dl2 = s.dl2) (h4 : t.dl1 = s.dl1) (h5 : t.dl0 = s.dl0) (h6 : t.verdict = s.verdict) : t.wf = true := by
  rw [State.wf_iff] at h ⊢
  rw [h1, h2, h3, h4, h5, h6]
  exact h

end Sys2Proof.Machine
end

