-- ==== Sys2Proof/Laws/Step.lean ====
section
/-! SUPPORT. What one step can do, said once (R38, R46, R145), and the induction over a run, packaged once. -/

namespace Sys2Proof.Machine

/-- With a word on the port, a step is the spec's step function on that word. -/
theorem step_word {s : State} {cw : Word} {rest : List HostInput} (h : s.pending = .word cw :: rest) :
    step s = execWord cw (s.setPending rest) := by
  simp [step, nextInput_cons h]

/-- A legal word is executed as its command. -/
theorem execWord_ok {cw : Word} {i : Instr} (h : decode cw = .ok i) (s : State) : execWord cw s = exec i s := by
  simp [execWord, h]

/-- An illegal word faults ILL. -/
theorem execWord_error {cw : Word} {e : DecodeError} (h : decode cw = .error e) (s : State) :
    execWord cw s = .next (afterIll s) := by
  simp [execWord, h]

/-- Everything a step that answers a next state can have done. -/
theorem step_next_cases {s t : State} (h : step s = .next t) :
    (s.pending = [] ∧ t = s) ∨
    (∃ rest, s.pending = .reset :: rest ∧ t = resetEvent (s.setPending rest)) ∨
    (∃ cw rest i, s.pending = .word cw :: rest ∧ decode cw = .ok i ∧ exec i (s.setPending rest) = .next t) ∨
    (∃ cw rest e, s.pending = .word cw :: rest ∧ decode cw = .error e ∧ t = afterIll (s.setPending rest)) := by
  rcases hp : s.pending with _ | ⟨_ | _, rest⟩
  · simp only [step, nextInput_nil hp, Host.Outcome.next.injEq] at h
    exact .inl ⟨rfl, h.symm⟩
  · rename_i cw
    rw [step_word hp] at h
    rcases hd : decode cw with e | i
    · rw [execWord_error hd, Host.Outcome.next.injEq] at h
      exact .inr (.inr (.inr ⟨cw, rest, e, rfl, hd, h.symm⟩))
    · rw [execWord_ok hd] at h
      exact .inr (.inr (.inl ⟨cw, rest, i, rfl, hd, h⟩))
  · simp only [step, nextInput_cons hp, Host.Outcome.next.injEq] at h
    exact .inr (.inl ⟨rest, rfl, h.symm⟩)

theorem runSteps_zero (s : State) : runSteps 0 s = .next s := rfl

/-- A run of one more step. -/
theorem runSteps_succ {s t : State} (h : step s = .next t) (k : Nat) : runSteps (k + 1) s = runSteps k t := by
  simp [runSteps, Host.Core.run, Sys2Proof.core, h]

/-- A run that answers a next state takes a first step that does. -/
theorem runSteps_succ_inv {s t : State} {k : Nat} (h : runSteps (k + 1) s = .next t) :
    ∃ u, step s = .next u ∧ runSteps k u = .next t := by
  rcases hs : step s with u | f | r
  · exact ⟨u, rfl, runSteps_succ hs k ▸ h⟩
  · cases f
  · simp [runSteps, Host.Core.run, Sys2Proof.core, hs] at h

/-- A run in two parts. -/
theorem runSteps_append {m n : Nat} {s t : State} (h : runSteps m s = .next t) :
    runSteps (m + n) s = runSteps n t := by
  induction m generalizing s with
  | zero =>
    cases h
    rw [Nat.zero_add]
  | succ m ih =>
    obtain ⟨u, hu, h⟩ := runSteps_succ_inv h
    rw [Nat.succ_add, runSteps_succ hu]
    exact ih h

/-- What every step keeps, every run keeps. -/
theorem runSteps_keeps (P : State → Prop) (keeps : ∀ s t, P s → step s = .next t → P t) {k : Nat} {s t : State}
    (h0 : P s) (h : runSteps k s = .next t) : P t := by
  induction k generalizing s with
  | zero =>
    cases h
    exact h0
  | succ k ih =>
    obtain ⟨u, hu, h⟩ := runSteps_succ_inv h
    exact ih (keeps s u h0 hu) h

end Sys2Proof.Machine
end

