-- ==== Sys2Proof/Tests/Slice0.lean ====
section
/-! SUPPORT. The model's own tests. Every expected value is taken from spec/: the patterns of 30_encoding.md rule R47, the
examples inside the command rules, and the vectors and programs of 95_test_vectors.md (named in each comment). Below them,
for every statement of Certificates/Slice0 that has hypotheses, a concrete state and operands that meet them. -/

namespace Sys2Proof.Tests

open Sys2Proof Sys2Proof.Machine

/-- The state a command leaves, if it leaves one. -/
def after (i : Instr) (s : State) : Option State :=
  match exec i s with
  | .next t => some t
  | _ => none

/-- The state a step leaves, if it leaves one. -/
def afterStep (s : State) : Option State :=
  match step s with
  | .next t => some t
  | _ => none

/-- Inside a CRC operation that has absorbed `Q` (P1). -/
def crcState : State := { State.reset with mode := .crc, acc := 0x4AD4#16 }

/-- At the end of the CRC operation over "TEST" (R76). -/
def crcDone : State := { State.reset with mode := .crc, acc := 0x080A#16 }

/-- At the end of the TX operation over "QPIRI" (P2). -/
def txState : State := { State.reset with mode := .tx, acc := 0xF854#16 }

/-- The state of R99's example. -/
def rxState : State :=
  { State.reset with mode := .rx, rxn := 4, mok := true, dl2 := 0x54#8, dl1 := 0x45#8, dl0 := 0x53#8 }

/-- The first state of R100's example. -/
def rxDone : State :=
  { State.reset with mode := .rx, rxn := 4, mok := true, acc := 0x080A#16, dl2 := 0xAA#8, dl1 := 0xBB#8, dl0 := 0x0D#8 }

/-- A state with both sticky bits set. -/
def faulted : State := { State.reset with ill := true, seq := true }

/-! ### Decoding: one word per command, bit by bit from R47's patterns -/

theorem test_decode_nop : decode 0b0000000000000000#16 = .ok .nop := by rfl

theorem test_decode_crcStart : decode 0b0001000000000000#16 = .ok .crcStart := by rfl

theorem test_decode_crcByte : decode 0b0001000111001010#16 = .ok (.crcByte 0b11001010#8) := by rfl

theorem test_decode_crcEnd : decode 0b0001001000000000#16 = .ok .crcEnd := by rfl

theorem test_decode_txStart : decode 0b0010000000000000#16 = .ok .txStart := by rfl

theorem test_decode_txByte : decode 0b0010000110010011#16 = .ok (.txByte 0b10010011#8) := by rfl

theorem test_decode_txEnd : decode 0b0010001000000000#16 = .ok .txEnd := by rfl

theorem test_decode_rxStart : decode 0b0011000000000000#16 = .ok .rxStart := by rfl

theorem test_decode_rxByte : decode 0b0011000111111110#16 = .ok (.rxByte 0b11111110#8) := by rfl

theorem test_decode_rxEnd : decode 0b0011001000000000#16 = .ok .rxEnd := by rfl

theorem test_decode_rdreg : decode 0b0100000000000110#16 = .ok (.rdreg 6#8) := by rfl

theorem test_decode_wrctrl : decode 0b0100000100000001#16 = .ok (.wrctrl 1#8) := by rfl

/-- V34: words just outside the legal ones, refused by name. -/
theorem test_decode_illegal :
    decode 0x0100#16 = .error .unknownOp ∧ decode 0x1300#16 = .error .unknownOp ∧
    decode 0x1201#16 = .error .operandNotZero ∧ decode 0x32FF#16 = .error .operandNotZero ∧
    decode 0x4008#16 = .error .noSuchRegister ∧ decode 0x4102#16 = .error .noSuchCtrlBit := by
  refine ⟨rfl, rfl, rfl, rfl, rfl, rfl⟩

/-- R60: words the assembler writes for COMPUTE "QPIGS". -/
theorem test_encode : encode .crcStart = 0x1000#16 ∧ encode (.crcByte 0x51#8) = 0x1151#16 ∧ encode .crcEnd = 0x1200#16 := by
  decide

/-- The check of RDREG's operand refuses register 8 and admits register 7 (V34). -/
theorem test_wellFormed_rdreg : (Instr.rdreg 8#8).wellFormed = false ∧ (Instr.rdreg 7#8).wellFormed = true := by decide

/-- The check of WRCTRL's operand refuses 2 and admits 1 (V34). -/
theorem test_wellFormed_wrctrl : (Instr.wrctrl 2#8).wellFormed = false ∧ (Instr.wrctrl 1#8).wellFormed = true := by decide

/-- The table's numbering of the bits is the word itself. -/
theorem test_decodeTableWord : decodeTableWord 16 0x2151 = some (.txByte 0x51#8) ∧ decodeTableWord 16 0x5000 = none := by
  decide

/-- The word placed is the one the next step runs. -/
theorem test_withFetchWord : (afterStep (State.reset.withFetchWord 16 0x1000)).map State.mode = some .crc := by decide

/-! ### One step per command -/

/-- R115. -/
theorem test_nop : after .nop rxState = some rxState := by decide

/-- R74. -/
theorem test_crcStart : (after .crcStart crcState).map State.acc = some 0x0000#16 := by decide

/-- P1: `P` after `Q`. -/
theorem test_crcByte : (after (.crcByte 0x50#8) crcState).map State.acc = some 0x677B#16 := by decide

/-- V35. -/
theorem test_crcByte_wrong_mode : (after (.crcByte 0x41#8) txState).map State.acc = some 0xF854#16 := by decide

/-- V6: the low byte 0x0A is delivered as 0x0B. -/
theorem test_crcEnd : (after .crcEnd crcDone).map State.out = some [⟨.crcHi, 0x08#8⟩, ⟨.crcLo, 0x0B#8⟩] := by decide

/-- R76: the register keeps the raw value. -/
theorem test_crcEnd_keeps_raw : (after .crcEnd crcDone).map State.acc = some 0x080A#16 := by decide

/-- R86. -/
theorem test_txStart : (after .txStart State.reset).map State.mode = some .tx := by decide

/-- P5: the byte is emitted; what it leaves in `ACC` is test_txByte_absorbs. -/
theorem test_txByte : (after (.txByte 0x51#8) { txState with acc := 0x0000#16 }).map State.out = some [⟨.txd, 0x51#8⟩] := by
  decide

theorem test_txByte_absorbs : (after (.txByte 0x51#8) { txState with acc := 0x0000#16 }).map State.acc = some 0x4AD4#16 := by
  decide

/-- P2. -/
theorem test_txEnd :
    (after .txEnd txState).map State.out = some [⟨.txd, 0xF8#8⟩, ⟨.txd, 0x54#8⟩, ⟨.txd, 0x0D#8⟩] := by decide

/-- R98. -/
theorem test_rxStart : (after .rxStart rxDone).map State.rxn = some 0 := by decide

/-- R98: the last verdict is cleared. -/
theorem test_rxStart_clears_verdict : (after .rxStart { rxDone with verdict := 0x0F#8 }).map State.verdict = some 0x00#8 := by
  decide

/-- R99's example. -/
theorem test_rxByte : after (.rxByte 0x54#8) rxState = some { rxState with
    acc := 0x1A71#16, dl2 := 0x45#8, dl1 := 0x53#8, dl0 := 0x54#8, out := [⟨.body, 0x54#8⟩] } := by decide

/-- P3: `STATUS` after RX_START and the marker. -/
theorem test_rxByte_marker :
    (after (.rxByte 0x28#8) { State.reset with mode := .rx }).map statusByte = some 0x27#8 := by decide

/-- R100's example. -/
theorem test_rxEnd : (after .rxEnd rxDone).map State.verdict = some 0x0F#8 := by decide

/-- V25 under enforcement: the document's example is rejected as ChecksumMismatch. -/
theorem test_rxEnd_enforced : (after .rxEnd { rxDone with verify := true }).map State.verdict = some 0xAE#8 := by decide

/-- P3's last line, RDREG RXCHK_HI. -/
theorem test_rdreg : (after (.rdreg 4#8) rxDone).map State.out = some [⟨.reg, 0xAA#8⟩] := by decide

/-- P5: `STATUS` with both sticky bits set. -/
theorem test_rdreg_status : (after (.rdreg 1#8) faulted).map State.out = some [⟨.reg, 0xC0#8⟩] := by decide

/-- R117. -/
theorem test_wrctrl : (after (.wrctrl 1#8) State.reset).map State.verify = some true := by decide

/-- P5: an unknown `OP` faults ILL and the sticky bit is the only register that changes. -/
theorem test_illegal_word :
    afterStep (State.reset.withFetchWord 16 0x5000) = some { State.reset with ill := true, out := [⟨.err, 0x01#8⟩] } := by
  decide

/-- R145: reset clears the sticky bits and loses no emitted item. -/
theorem test_reset_event :
    afterStep { faulted with pending := [.reset], out := [⟨.err, 0x01#8⟩] }
      = some { State.reset with out := [⟨.err, 0x01#8⟩] } := by decide

/-! ### The functions: 95_test_vectors.md part 2 -/

/-- V2, V9d, V11i. -/
theorem test_crcRaw : crcRaw [0x51#8, 0x50#8, 0x49#8, 0x47#8, 0x53#8] = 0xB7A9#16 ∧ crcRaw [0x10#8] = 0x1231#16 ∧
    compute [0x25#8, 0x79#8, 0x3C#8] = (0x29#8, 0x29#8) := by decide

/-- V17b. -/
theorem test_encodeFrame : encodeFrame [0x49#8, 0x7E#8] = [0x49#8, 0x7E#8, 0x29#8, 0x0E#8, 0x0D#8] := by decide

/-- V26b: matching checksum, wrong terminator. -/
theorem test_validate :
    validate [0x28#8, 0x54#8, 0x45#8, 0x53#8, 0x54#8, 0x08#8, 0x0B#8, 0x0A#8] true
      = (0x7A#8, [0x54#8, 0x45#8, 0x53#8, 0x54#8]) := by decide

/-- E1: the document's own example. -/
theorem test_validateAndStrip :
    validateAndStrip [0x28#8, 0x54#8, 0x45#8, 0x53#8, 0x54#8, 0xAA#8, 0xBB#8, 0x0D#8]
      = .ok [0x54#8, 0x45#8, 0x53#8, 0x54#8] := by rfl

/-- R50: the twelve bits of an item. -/
theorem test_item_bits : (Item.mk .verdict 0x0F#8).bits = 0x50F#12 ∧ (Item.mk .err 0x02#8).bits = 0xF02#12 := by decide

/-- R59: a comment, a register name, a quoted character, and an operand that does not fit. -/
theorem test_assemble :
    assemble "RDREG RXTERM ; last byte".toList = some [0x4006#16] ∧
    assemble "CRC_BYTE 'Q'".toList = some [0x1151#16] ∧ assemble "CRC_BYTE 256".toList = none ∧
    assemble "TX_BYTE 0xfE".toList = some [0x21FE#16] ∧ assemble "TX_BYTE 0xG".toList = none ∧
    assemble "RDREG 8".toList = none := by decide

/-! ### Witnesses: what the statements' hypotheses ask for is met -/

theorem witness_ResetEventRestoresTheResetState :
    ({ faulted with pending := [.reset] } : State).pending = .reset :: [] ∧
    ({ faulted with pending := [.word 0x1141#16] } : State).pending = .word 0x1141#16 :: [] ∧
    (∃ t, step { faulted with pending := [.word 0x1141#16] } = .next t) ∧ faulted.ill = true ∧ faulted.seq = true :=
  ⟨rfl, rfl, ⟨_, rfl⟩, rfl, rfl⟩

theorem witness_NothingPresentedHoldsTheState : rxState.pending = [] := rfl

theorem witness_StepRunsTheDecodedCommand :
    ({ crcState with pending := [.word 0x1150#16, .reset] } : State).pending = .word 0x1150#16 :: [.reset] ∧
    decode 0x1150#16 = .ok (.crcByte 0x50#8) ∧ decode 0x1001#16 = .error .operandNotZero := ⟨rfl, rfl, rfl⟩

theorem witness_DecodeOfEncodeIsTheCommand :
    (Instr.rdreg 7#8).wellFormed = true ∧ (Instr.wrctrl 1#8).wellFormed = true ∧
    (Instr.crcByte 0xFF#8).wellFormed = true := by decide

theorem witness_EncodeOfDecodeIsTheWord : decode 0x4007#16 = .ok (.rdreg 7#8) := rfl

theorem witness_IllegalWordsAreTheFourCases : decode 0x4102#16 = .error .noSuchCtrlBit := rfl

theorem witness_CommandWordIsExecutedInThreeSteps :
    (∃ row ∈ opcodeRows, row.fits 0x4007#16 = true) ∧
    (∀ row ∈ opcodeRows, (0x4008#16 &&& row.mask) ≠ row.matchBits) ∧
    decode 0x1200#16 = .ok .crcEnd ∧ requiredMode .crcEnd = some .crc ∧ txState.mode ≠ .crc ∧
    modeAllows .crcEnd crcState.mode = true := by
  refine ⟨by decide, by decide, rfl, rfl, by decide, by decide⟩

theorem witness_AvoidanceRaisesTheReservedBytesOnly :
    (0x29#8 : Byte) ≠ 0x28#8 ∧ (0x29#8 : Byte) ≠ 0x0D#8 ∧ (0x29#8 : Byte) ≠ 0x0A#8 := by decide

theorem witness_NopChangesNothing : (0x01#8 : Byte) ≠ 0x00#8 := by decide

theorem witness_CrcStartOpensAChecksum :
    (0xFF#8 : Byte) ≠ 0x00#8 ∧ (∃ t, exec .crcStart rxState = .next t) ∧ (∃ t, exec .crcStart State.reset = .next t) :=
  ⟨by decide, ⟨_, rfl⟩, ⟨_, rfl⟩⟩

theorem witness_CrcByteAbsorbsItsOperand : crcState.mode = .crc ∧ State.reset.mode ≠ .crc := by decide

theorem witness_CrcEndDeliversTheAdjustedBytes :
    crcDone.mode = .crc ∧ rxState.mode ≠ .crc ∧ (0x01#8 : Byte) ≠ 0x00#8 ∧ (∃ t, exec .crcEnd crcDone = .next t) :=
  ⟨rfl, by decide, by decide, ⟨_, rfl⟩⟩

theorem witness_TxStartOpensAnOutboundFrame :
    (0x01#8 : Byte) ≠ 0x00#8 ∧ (∃ t, exec .txStart State.reset = .next t) := ⟨by decide, ⟨_, rfl⟩⟩

theorem witness_TxByteEmitsAndAbsorbsItsOperand : txState.mode = .tx ∧ crcState.mode ≠ .tx := by decide

theorem witness_TxEndEmitsTheTrailer : txState.mode = .tx ∧ State.reset.mode ≠ .tx ∧ (0x01#8 : Byte) ≠ 0x00#8 := by decide

theorem witness_RxStartOpensAnInboundFrame :
    (0xFF#8 : Byte) ≠ 0x00#8 ∧ (∃ t, exec .rxStart faulted = .next t) := ⟨by decide, ⟨_, rfl⟩⟩

/-- The count at each end of its range: no byte yet, three bytes, four or more. -/
theorem witness_RxByteShiftsTheDelayLine :
    ({ rxState with rxn := 0, mok := false } : State).mode = .rx ∧ ({ rxState with rxn := 3 } : State).mode = .rx ∧
    rxState.mode = .rx ∧ rxState.rxn = 4 ∧ txState.mode ≠ .rx := by decide

theorem witness_RxEndReportsTheVerdict :
    rxDone.mode = .rx ∧ rxDone.mok = true ∧ rxDone.rxn = 4 ∧ rxDone.acc = 0x080A#16 ∧ rxDone.dl0 = 0x0D#8 ∧
    rxDone.verify = false ∧ rxDone.dl2 = 0xAA#8 ∧ rxDone.dl1 = 0xBB#8 ∧ (∃ t, exec .rxEnd rxDone = .next t) ∧
    (∃ t, exec .rxEnd { rxDone with dl2 := 0x08#8, dl1 := 0x0B#8 } = .next t) ∧
    (∃ t u, exec .rxStart rxDone = .next t ∧ exec .rxEnd t = .next u) ∧
    State.reset.mode ≠ .rx ∧ (0x01#8 : Byte) ≠ 0x00#8 :=
  ⟨rfl, rfl, rfl, rfl, rfl, rfl, rfl, rfl, ⟨_, rfl⟩, ⟨_, rfl⟩, ⟨_, _, rfl, rfl⟩, by decide, by decide⟩

theorem witness_RdregReadsTheRegisterSpace :
    (7#8 : Byte).toNat ≤ 7 ∧ 7 < (8#8 : Byte).toNat ∧ 1 ≤ (1#8 : Byte).toNat ∧ (1#8 : Byte).toNat ≤ 7 ∧
    (∃ t, exec (.wrctrl 1#8) rxState = .next t) := ⟨by decide, by decide, by decide, by decide, ⟨_, rfl⟩⟩

theorem witness_OperandsThatDoNotExistFaultIll : 7 < (8#8 : Byte).toNat ∧ 1 < (2#8 : Byte).toNat := by decide

theorem witness_WrctrlSetsVerify :
    (1#8 : Byte).toNat ≤ 1 ∧ 1 < (2#8 : Byte).toNat ∧ (∃ t, exec (.wrctrl 1#8) State.reset = .next t) :=
  ⟨by decide, by decide, ⟨_, rfl⟩⟩

theorem witness_StatusHoldsItsFields :
    rxDone.ill = false ∧ rxDone.seq = false ∧
    (∃ t u, exec .rxStart rxDone = .next t ∧ exec (.rxByte 0x28#8) t = .next u) := ⟨rfl, rfl, ⟨_, _, rfl, rfl⟩⟩

theorem witness_CtrlHasTheOneFieldVerify :
    rxDone.mode = .rx ∧ (∃ t, exec .rxEnd rxDone = .next t) ∧ (0x02#8 : Byte).extractLsb' 1 7 ≠ 0#7 :=
  ⟨rfl, ⟨_, rfl⟩, by decide⟩

theorem witness_ItemsCarryTheirKindAndData :
    (∃ t, step { crcState with pending := [.word 0x2200#16] } = .next t ∧ (⟨.err, 0x02#8⟩ : Item) ∈ t.out) :=
  ⟨_, rfl, by decide⟩

theorem witness_EveryCommandEmitsItsItems :
    (Instr.rdreg 7#8).wellFormed = true ∧ (∃ t, exec (.rdreg 7#8) rxDone = .next t) ∧
    (∃ t, exec (.rxByte 0x54#8) rxState = .next t) ∧ decode 0x0001#16 = .error .operandNotZero ∧
    (∃ t, execWord 0x0001#16 rxDone = .next t) := ⟨rfl, ⟨_, rfl⟩, ⟨_, rfl⟩, rfl, ⟨_, rfl⟩⟩

theorem witness_VerdictFieldsAreConsistent : rxDone.mode = .rx ∧ (∃ t, exec .rxEnd rxDone = .next t) := ⟨rfl, ⟨_, rfl⟩⟩

theorem witness_FaultSetsItsBitAndEmitsOneItem :
    decode 0x5000#16 = .error .unknownOp ∧ requiredMode .txEnd = some .tx ∧ crcState.mode ≠ .tx ∧
    decode 0x1200#16 = .ok .crcEnd ∧ decode 0x1200#16 ≠ .ok (.rdreg 1#8) ∧ (∃ t, execWord 0x1200#16 crcState = .next t) :=
  ⟨rfl, rfl, by decide, rfl, by simp [show decode 0x1200#16 = .ok .crcEnd from rfl], ⟨_, rfl⟩⟩

theorem witness_ModeFollowsItsTransitionTable :
    Instr.rxEnd.wellFormed = true ∧ modeAllows .rxEnd rxDone.mode = true ∧ modeAllows .rxEnd crcState.mode = false ∧
    decode 0x3201#16 = .error .operandNotZero := ⟨rfl, rfl, rfl, rfl⟩

theorem witness_DecodeComesBeforeTheModeCheck :
    decode 0x1201#16 = .error .operandNotZero ∧ rxDone.mode = .rx ∧ (∃ t, exec .rxEnd rxDone = .next t) ∧
    State.reset.mode ≠ .rx ∧ (∃ t, exec .rxEnd State.reset = .next t) := ⟨rfl, rfl, ⟨_, rfl⟩, by decide, ⟨_, rfl⟩⟩

theorem witness_VerifyIsSampledByRxEnd :
    rxDone.mode = .rx ∧ (1#8 : Byte).toNat ≤ 1 ∧ (∃ t u, exec (.wrctrl 1#8) rxDone = .next t ∧ exec .rxEnd t = .next u) :=
  ⟨rfl, by decide, ⟨_, _, rfl, rfl⟩⟩

theorem witness_EveryStepKeepsStatesWellFormed :
    rxState.wf = true ∧ (∃ t, step { rxState with pending := [.word 0x3154#16] } = .next t) := ⟨by decide, ⟨_, rfl⟩⟩

theorem witness_ResultsKeepTheirValuesUntilTheirNextWriter :
    (∃ t, exec .txEnd txState = .next t) ∧ Instr.txEnd ∉ [Instr.crcStart, .txStart, .rxStart] ∧
    crcPayload .txEnd = none ∧ txPayload .txEnd = none ∧ rxPayload .txEnd = none ∧ Instr.txEnd ≠ .rxStart ∧
    Instr.txEnd ≠ .rxEnd ∧ (∀ v, Instr.txEnd ≠ .wrctrl v) ∧ faulted.ill = true ∧ faulted.seq = true :=
  ⟨⟨_, rfl⟩, by decide, rfl, rfl, rfl, by decide, by decide, by simp, rfl, rfl⟩

theorem witness_NoStepReadsTheOutputStream :
    ∃ t, step { rxState with pending := [.word 0x3154#16] } = .next t := ⟨_, rfl⟩

/-- Two states that agree on what the open CRC operation reads and on nothing else, `VERIFY` included; two in which RX_END
needs the same `VERIFY`; and two that agree on nothing before a START. -/
theorem witness_OperationsDoNotSeeEarlierResults :
    (let s' : State := { crcState with dl0 := 0x11#8, verdict := 0x4F#8, rxn := 2, verify := true }
     crcState.mode = s'.mode ∧ crcState.acc = s'.acc ∧ crcState.mode ≠ .rx ∧ crcState.verify ≠ s'.verify ∧
     (∃ t, exec .crcEnd crcState = .next t) ∧ (∃ t, exec .crcEnd s' = .next t)) ∧
    (rxDone.verify = ({ rxDone with verdict := 0x4F#8 } : State).verify ∧ (∃ t, exec .rxEnd rxDone = .next t) ∧
     (∃ t, exec .rxEnd { rxDone with verdict := 0x4F#8 } = .next t)) ∧
    Instr.rxStart ∈ [Instr.crcStart, .txStart, .rxStart] ∧
    (∃ t, exec .rxStart rxDone = .next t) ∧ (∃ t, exec .rxStart { txState with verify := true } = .next t) ∧
    (1#8 : Byte).toNat ≤ 1 ∧ (∃ t, exec (.wrctrl 1#8) rxDone = .next t) ∧
    (∃ t, exec (.wrctrl 1#8) { txState with verify := true } = .next t) ∧
    (∃ t t', step { crcState with pending := [.word 0x4007#16] } = .next t ∧
      step { crcState with verdict := 0x4F#8, pending := [.word 0x4007#16] } = .next t') :=
  ⟨⟨rfl, rfl, by decide, by decide, ⟨_, rfl⟩, ⟨_, rfl⟩⟩, ⟨rfl, ⟨_, rfl⟩, ⟨_, rfl⟩⟩, by decide, ⟨_, rfl⟩, ⟨_, rfl⟩,
    by decide, ⟨_, rfl⟩, ⟨_, rfl⟩, ⟨_, _, rfl, rfl⟩⟩

theorem witness_CrcOperationComputesTheChecksum :
    (∀ i ∈ [Instr.crcByte 0x41#8, .rdreg 2#8, .nop, .wrctrl 1#8],
      i.wellFormed = true ∧ (isBystander i = true ∨ (crcPayload i).isSome = true)) ∧
    (∃ s : State, s.pending = presented (.crcStart :: [Instr.crcByte 0x41#8, .rdreg 2#8, .nop, .wrctrl 1#8]) ++
      .word (encode .crcEnd) :: []) := ⟨by decide, ⟨{ rxDone with pending := _ }, rfl⟩⟩

theorem witness_TxOperationEmitsTheFrame :
    (∀ i ∈ [Instr.txByte 0x51#8, .rdreg 1#8, .wrctrl 0#8],
      i.wellFormed = true ∧ (isBystander i = true ∨ (txPayload i).isSome = true)) ∧
    (∃ s : State, s.pending = presented (.txStart :: ([Instr.txByte 0x51#8, .rdreg 1#8, .wrctrl 0#8] ++ [.txEnd])) ++ []) :=
  ⟨by decide, ⟨{ crcState with pending := _ }, rfl⟩⟩

theorem witness_StripFailsExactlyOnUnframedBuffers : ¬ ∃ body, validateAndStrip [0x28#8] = .ok body := by
  rintro ⟨body, h⟩
  cases h

theorem witness_StripReturnsTheInterior :
    4 ≤ [0x28#8, 0x00#8, 0x00#8, 0x0D#8].length ∧ validateAndStrip [0x28#8, 0x00#8, 0x00#8, 0x0D#8] = .ok [] :=
  ⟨by decide, rfl⟩

theorem witness_ShortBuffersHaveTheEmptyBody :
    (∃ raw : List Byte, raw = [0x28#8, 0x0D#8]) ∧ (∃ raw : List Byte, ∃ x, raw = [0x28#8, x, 0x0D#8]) :=
  ⟨⟨_, rfl⟩, ⟨_, 0x41#8, rfl⟩⟩

theorem witness_SecondStripFailsUnlessTheBodyIsFramed :
    validateAndStrip [0x28#8, 0x41#8, 0x58#8, 0xE5#8, 0x0D#8] = .ok [0x41#8] ∧
    ¬ ([0x41#8].head? = some 0x28#8 ∧ [0x41#8].getLast? = some 0x0D#8) := ⟨rfl, by decide⟩

/-- The empty buffer, and one of five bytes. -/
theorem witness_ReceivedBytesAreExtracted :
    (∃ s : State, s.pending = presented (.rxStart :: ([] : List Byte).map .rxByte) ++ []) ∧
    (∃ s : State, s.pending =
      presented (.rxStart :: [0x28#8, 0x41#8, 0x58#8, 0xE5#8, 0x0D#8].map .rxByte) ++ [.word 0x3200#16]) :=
  ⟨⟨{ rxDone with pending := _ }, rfl⟩, ⟨{ faulted with pending := _ }, rfl⟩⟩

theorem witness_RxOperationIsTheBufferFunction :
    (∀ i ∈ [Instr.rxByte 0x28#8, .rdreg 1#8, .nop, .rxByte 0x0D#8],
      i.wellFormed = true ∧ (isObserver i = true ∨ (rxPayload i).isSome = true)) ∧
    (∃ s : State, s.verify = true ∧
      s.pending = presented (.rxStart :: ([Instr.rxByte 0x28#8, .rdreg 1#8, .nop, .rxByte 0x0D#8] ++ [.rxEnd])) ++ []) :=
  ⟨by decide, ⟨{ crcState with verify := true, pending := _ }, rfl, rfl⟩⟩

/-- A buffer of five bytes with a wrong terminator, an RDREG and a NOP between. -/
theorem witness_BodyItemsAreRejectedExactlyThen :
    (∀ i ∈ [Instr.rxByte 0x28#8, .rdreg 1#8, .rxByte 0x41#8, .rxByte 0x58#8, .nop, .rxByte 0xE5#8, .rxByte 0x0A#8],
      i.wellFormed = true ∧ (isObserver i = true ∨ (rxPayload i).isSome = true)) ∧
    (∃ s : State, s.pending = presented (.rxStart :: ([Instr.rxByte 0x28#8, .rdreg 1#8, .rxByte 0x41#8, .rxByte 0x58#8,
      .nop, .rxByte 0xE5#8, .rxByte 0x0A#8] ++ [.rxEnd])) ++ [.reset]) :=
  ⟨by decide, ⟨{ crcState with pending := _ }, rfl⟩⟩

theorem witness_AssemblerWritesLegalWords :
    ∃ words, assemble "WRCTRL 1 ; enforce".toList = some words ∧ 0x4101#16 ∈ words := ⟨_, rfl, by decide⟩

end Sys2Proof.Tests
end

section
/-! What each arm of `exec` answers once the mode check is decided (R46, R47), and which modes the table of R12 admits. -/

namespace Sys2Proof.Machine

theorem exec_rxStart (s : State) : exec .rxStart s =
    .next ((((((s.setAcc 0x0000#16).setRxn 0).setMok false).setDelay 0x00#8 0x00#8 0x00#8).setVerdict
      0x00#8).setMode .rx) := rfl

theorem exec_crcByte_of_crc {s : State} (h : s.mode = .crc) (c : Byte) :
    exec (.crcByte c) s = .next (s.setAcc (absorb s.acc c)) :=
  congrArg Host.Outcome.next (inMode_eq h)

theorem exec_crcEnd_of_crc {s : State} (h : s.mode = .crc) : exec .crcEnd s =
    .next (((s.emit .crcHi (adjustedBytes s.acc).1).emit .crcLo (adjustedBytes s.acc).2).setMode .idle) :=
  congrArg Host.Outcome.next (inMode_eq h)

theorem exec_txByte_of_tx {s : State} (h : s.mode = .tx) (c : Byte) :
    exec (.txByte c) s = .next ((s.emit .txd c).setAcc (absorb s.acc c)) :=
  congrArg Host.Outcome.next (inMode_eq h)

theorem exec_txEnd_of_tx {s : State} (h : s.mode = .tx) : exec .txEnd s =
    .next ((((s.emit .txd (adjustedBytes s.acc).1).emit .txd (adjustedBytes s.acc).2).emit .txd
      Config.term).setMode .idle) :=
  congrArg Host.Outcome.next (inMode_eq h)

theorem exec_rxByte_of_rx {s : State} (h : s.mode = .rx) (d : Byte) : exec (.rxByte d) s =
    .next ((((leaveDelayLine s).setMok (markerFlag s.rxn s.mok d)).setDelay s.dl1 s.dl0 d).setRxn (countByte s.rxn)) :=
  congrArg Host.Outcome.next (inMode_eq h)

theorem exec_rxEnd_of_rx {s : State} (h : s.mode = .rx) : exec .rxEnd s =
    .next (((s.emit .verdict (rxVerdict s)).setVerdict (rxVerdict s)).setMode .idle) :=
  congrArg Host.Outcome.next (inMode_eq h)

theorem exec_rdreg_of_le {r : Byte} (h : r.toNat ≤ 7) (s : State) :
    ∃ v, readReg r s = some v ∧ exec (.rdreg r) s = .next (s.emit .reg v) := by
  obtain ⟨_, hv⟩ | ⟨hgt, _⟩ := execRdreg_cases r s
  · exact hv
  · omega

theorem exec_wrctrl_of_le {v : Byte} (h : v.toNat ≤ 1) (s : State) :
    exec (.wrctrl v) s = .next (s.setVerify (v.getLsbD 0)) := by
  obtain ⟨_, hv⟩ | ⟨hgt, _⟩ := execWrctrl_cases v s
  · exact hv
  · omega

/-- R46 (2): every command that requires a mode faults SEQ in the other three. -/
theorem exec_eq_afterSeq {i : Instr} {m : Mode} {s : State} (hi : requiredMode i = some m) (hm : s.mode ≠ m) :
    exec i s = .next (afterSeq s) := by
  cases i <;> cases hi
  all_goals exact congrArg Host.Outcome.next (inMode_ne hm)

theorem modeAllows_of_required {i : Instr} {m : Mode} (hi : requiredMode i = some m) (n : Mode) :
    modeAllows i n = true ↔ n = m := by
  rw [eq_comm (a := n)]
  simp [modeAllows, hi]

theorem modeAllows_of_any {i : Instr} (hi : requiredMode i = none) (n : Mode) : modeAllows i n = true := by
  simp [modeAllows, hi]

/-- The mode check fails exactly on a command that requires a mode other than the present one. -/
theorem modeAllows_eq_false_iff {i : Instr} {n : Mode} :
    modeAllows i n = false ↔ ∃ m, requiredMode i = some m ∧ n ≠ m := by
  rcases hi : requiredMode i with _ | m
  · simp [modeAllows_of_any hi]
  · simp [← Bool.not_eq_true, modeAllows_of_required hi]

/-- R12's transition table: an admitted command is executed, moves `MODE` as its row says, and takes no fault. -/
theorem exec_of_modeAllows {i : Instr} {s : State} (hwf : i.wellFormed = true) (hm : modeAllows i s.mode = true) :
    ∃ t, exec i s = .next t ∧ t.mode = (enteredMode i).getD s.mode ∧ t.seq = s.seq ∧ t.ill = s.ill := by
  cases i with
  | nop => exact ⟨_, rfl, rfl, rfl, rfl⟩
  | crcStart => exact ⟨_, rfl, rfl, rfl, rfl⟩
  | crcByte c =>
    have h := (modeAllows_of_required rfl _).mp hm
    exact ⟨_, exec_crcByte_of_crc h c, h, rfl, rfl⟩
  | crcEnd => exact ⟨_, exec_crcEnd_of_crc ((modeAllows_of_required rfl _).mp hm), rfl, rfl, rfl⟩
  | txStart => exact ⟨_, rfl, rfl, rfl, rfl⟩
  | txByte c =>
    have h := (modeAllows_of_required rfl _).mp hm
    exact ⟨_, exec_txByte_of_tx h c, h, rfl, rfl⟩
  | txEnd => exact ⟨_, exec_txEnd_of_tx ((modeAllows_of_required rfl _).mp hm), rfl, rfl, rfl⟩
  | rxStart => exact ⟨_, rfl, rfl, rfl, rfl⟩
  | rxByte d =>
    have h := (modeAllows_of_required rfl _).mp hm
    exact ⟨_, exec_rxByte_of_rx h d, by simpa [enteredMode] using h, by simp, by simp⟩
  | rxEnd => exact ⟨_, exec_rxEnd_of_rx ((modeAllows_of_required rfl _).mp hm), rfl, rfl, rfl⟩
  | rdreg r =>
    obtain ⟨v, _, hv⟩ := exec_rdreg_of_le (of_decide_eq_true hwf) s
    exact ⟨_, hv, rfl, rfl, rfl⟩
  | wrctrl v => exact ⟨_, exec_wrctrl_of_le (of_decide_eq_true hwf) s, rfl, rfl, rfl⟩

end Sys2Proof.Machine
end

section
/-! The fields of `STATUS` and `CTRL`, each said once (R18, R21), what a word of WRCTRL may hold, and when a verdict accepts. -/

namespace Sys2Proof.Machine

@[simp] theorem statusByte_mode (s : State) : (statusByte s).extractLsb' 0 2 = s.mode.code := by
  rw [statusByte, BitVec.extractLsb'_append_eq_right]

@[simp] theorem statusByte_rxn (s : State) : (statusByte s).extractLsb' 2 3 = BitVec.ofNat 3 s.rxn.val := by
  rw [statusByte, BitVec.extractLsb'_append_eq_of_le (by omega), BitVec.extractLsb'_append_eq_right]

/-- The three bits hold all five values of `RXN`. -/
theorem statusByte_rxn_toNat (s : State) : ((statusByte s).extractLsb' 2 3).toNat = s.rxn.val := by
  rw [statusByte_rxn, BitVec.toNat_ofNat]
  omega

@[simp] theorem statusByte_mok (s : State) : (statusByte s)[5] = s.mok := by
  simp only [statusByte, ← BitVec.getLsbD_eq_getElem, BitVec.getLsbD_append]
  simp

@[simp] theorem statusByte_seq (s : State) : (statusByte s)[6] = s.seq := by
  simp only [statusByte, ← BitVec.getLsbD_eq_getElem, BitVec.getLsbD_append]
  simp

@[simp] theorem statusByte_ill (s : State) : (statusByte s)[7] = s.ill := by
  simp only [statusByte, ← BitVec.getLsbD_eq_getElem, BitVec.getLsbD_append]
  simp

@[simp] theorem ctrlByte_verify (s : State) : (ctrlByte s)[0] = s.verify := by
  simp only [ctrlByte, ← BitVec.getLsbD_eq_getElem, BitVec.getLsbD_append]
  simp

@[simp] theorem ctrlByte_reserved (s : State) : (ctrlByte s).extractLsb' 1 7 = 0#7 :=
  BitVec.extractLsb'_append_eq_left

/-- R18's bits 7 to 1 are clear exactly in the values 0 and 1. -/
theorem upperBits_eq_zero_iff (v : Byte) : v.extractLsb' 1 7 = 0#7 ↔ v.toNat ≤ 1 := by
  rw [← BitVec.toNat_inj]
  simp [Nat.shiftRight_eq_div_pow]
  omega

/-- R49 (d). -/
theorem decode_wrctrl_illegal {v : Byte} (h : 1 < v.toNat) : decode (0x41#8 ++ v) = .error .noSuchCtrlBit := by
  simp [decode_append, Nat.not_le.mpr h]

theorem receivedChecksumMatches_iff (s : State) : receivedChecksumMatches s = true ↔
    s.rxn = 4 ∧ s.dl2 = adj (highByte s.acc) ∧ s.dl1 = adj (lowByte s.acc) := by
  simp [receivedChecksumMatches, adjustedBytes, and_assoc]

/-- R100: `accept`, by the tests it is made of. -/
theorem rxVerdict_accept_iff (s : State) : (rxVerdict s)[0] = true ↔
    (s.mok = true ∧ 1 ≤ s.rxn.val ∧ s.dl0 = Config.term) ∧ (s.verify = true → receivedChecksumMatches s = true) := by
  cases hv : s.verify <;> simp [rxVerdict, hv]

end Sys2Proof.Machine
end

section
/-! The state's statements: reset (R24), `STATUS` (R21), `CTRL` (R18) and `MODE` (R12). -/

namespace Sys2Proof.Machine

/-- Settles O1: every element by the definition of reset, and RX_START writes all it writes but `MODE` with its reset
value. -/
theorem resetLeavesEveryElementAtItsValue : Obligations.ResetLeavesEveryElementAtItsValue :=
  ⟨rfl, rfl, rfl, rfl, rfl, rfl, rfl, rfl, rfl, rfl, rfl, exec_rxStart State.reset⟩

/-- R21's example: the marker as the first byte of a frame, with no fault before it. -/
theorem statusByte_after_marker {s t u : State} (hill : s.ill = false) (hseq : s.seq = false)
    (ht : exec .rxStart s = .next t) (hu : exec (.rxByte 0x28#8) t = .next u) : statusByte u = 0x27#8 := by
  rw [exec_rxStart, Host.Outcome.next.injEq] at ht
  subst ht
  rw [exec_rxByte_of_rx rfl, Host.Outcome.next.injEq] at hu
  subst hu
  calc statusByte _
      = BitVec.ofBool s.ill ++ BitVec.ofBool s.seq ++ BitVec.ofBool (markerFlag 0 false 0x28#8) ++ 0b001#3 ++
          Mode.rx.code := by simp [statusByte]
    _ = BitVec.ofBool false ++ BitVec.ofBool false ++ BitVec.ofBool true ++ 0b001#3 ++ 0b11#2 := by
        rw [hill, hseq]; rfl
    _ = 0x27#8 := rfl

/-- Settles O33: the five fields as lemmas of `statusByte`, and the rule's example run from any state without a fault. -/
theorem statusHoldsItsFields : Obligations.StatusHoldsItsFields :=
  ⟨fun s => ⟨statusByte_mode s, statusByte_rxn_toNat s, statusByte_mok s, statusByte_seq s, statusByte_ill s⟩,
    fun _ _ _ => statusByte_after_marker⟩

/-- Settles O34: RX_END stores `rxVerdict`, whose bit 0 is `accept`, and a WRCTRL word with a bit above bit 0 does not
decode. -/
theorem ctrlHasTheOneFieldVerify : Obligations.CtrlHasTheOneFieldVerify := by
  refine ⟨fun s => ⟨ctrlByte_verify s, ctrlByte_reserved s⟩, fun s t hm ht => ?_, fun v s hv => ?_, rfl⟩
  · rw [exec_rxEnd_of_rx hm, Host.Outcome.next.injEq] at ht
    subst ht
    exact (rxVerdict_accept_iff s).trans (by rw [receivedChecksumMatches_iff]; rfl)
  · have hgt : 1 < v.toNat := Nat.not_le.mp (mt (upperBits_eq_zero_iff v).mpr hv)
    exact execWord_error (decode_wrctrl_illegal hgt) s

/-- Settles O39: the admitted commands by R12's table, the others by the two faults of R128. -/
theorem modeFollowsItsTransitionTable : Obligations.ModeFollowsItsTransitionTable := by
  refine ⟨rfl, rfl, rfl, rfl, fun i s => exec_of_modeAllows, fun i s hm => ?_, fun cw e s he => ?_⟩
  · obtain ⟨m, hi, hne⟩ := modeAllows_eq_false_iff.mp hm
    exact ⟨afterSeq s, exec_eq_afterSeq hi hne, rfl, rfl⟩
  · exact ⟨afterIll s, execWord_error he s, rfl, rfl⟩

end Sys2Proof.Machine
end

section
/-! The Checksum Engine's table (R31, R32). -/

namespace Sys2Proof.Machine

/-- R32's closed form, compared with R31's literal at each of the sixteen indices. -/
theorem tab_eq_xor_shifts (i : Nibble) :
    tab i = (i.zeroExtend 16 <<< 12) ^^^ (i.zeroExtend 16 <<< 5) ^^^ i.zeroExtend 16 := by
  revert i
  decide

/-- Linearity: zero extension and the shifts of the closed form distribute over xor. -/
theorem tab_xor (i j : Nibble) : tab (i ^^^ j) = tab i ^^^ tab j := by
  simp only [tab_eq_xor_shifts, BitVec.zeroExtend_eq_setWidth, BitVec.setWidth_xor, BitVec.shiftLeft_xor_distrib]
  ac_rfl

/-- Settles O11: the literals by definition, the closed form index by index, and linearity from the closed form. -/
theorem tableHasTheLiteralsAndTheirClosedForm : Obligations.TableHasTheLiteralsAndTheirClosedForm :=
  ⟨rfl, tab_eq_xor_shifts, tab_xor⟩

end Sys2Proof.Machine
end

section
/-! The command table read row by row (R46, R47): the rows are disjoint, so the decoder answers exactly what a row that fits
builds, and every command it answers is well-formed. -/

namespace Sys2Proof

theorem OpcodeRow.fits_iff (row : OpcodeRow) (cw : Word) : row.fits cw = true ↔ (cw &&& row.mask) = row.matchBits := by
  simp [OpcodeRow.fits]

/-- Every mask of the table covers the whole of `OP`, so a word that fits a row has the row's `OP`. -/
theorem opField_eq_of_fits {row : OpcodeRow} {cw : Word} (hmem : row ∈ opcodeRows) (hfits : row.fits cw = true) :
    opField cw = opField row.matchBits := by
  have hmask : ∀ row ∈ opcodeRows, opField row.mask = BitVec.allOnes 8 := by decide
  calc opField cw
      = opField cw &&& opField row.mask := by rw [hmask row hmem, BitVec.and_allOnes]
    _ = opField (cw &&& row.mask) := BitVec.extractLsb'_and.symm
    _ = opField row.matchBits := by rw [(row.fits_iff cw).mp hfits]

/-- The twelve values of `OP` are different, so at most one row fits a word. -/
theorem row_eq_of_fits {row row' : OpcodeRow} {cw : Word} (hmem : row ∈ opcodeRows) (hmem' : row' ∈ opcodeRows)
    (hfits : row.fits cw = true) (hfits' : row'.fits cw = true) : row = row' := by
  have hnodup : (opcodeRows.map fun row => opField row.matchBits).Nodup := by decide
  exact List.inj_on_of_nodup_map hnodup hmem hmem'
    ((opField_eq_of_fits hmem hfits).symm.trans (opField_eq_of_fits hmem' hfits'))

theorem decode_of_fits {row : OpcodeRow} {cw : Word} (hmem : row ∈ opcodeRows) (hfits : row.fits cw = true) :
    decode cw = .ok (row.build (dField cw)) := by
  rcases hfind : opcodeRows.find? (fun row => row.fits cw) with _ | row'
  · exact absurd hfits (List.find?_eq_none.mp hfind row hmem)
  · have hfits' : row'.fits cw = true := List.find?_some (p := fun row : OpcodeRow => row.fits cw) hfind
    rw [row_eq_of_fits hmem (List.mem_of_find?_eq_some hfind) hfits hfits']
    simp [decode, hfind]

theorem decode_of_no_row {cw : Word} (h : ∀ row ∈ opcodeRows, (cw &&& row.mask) ≠ row.matchBits) :
    decode cw = .error (whyIllegal cw) := by
  have hfind : opcodeRows.find? (fun row => row.fits cw) = none :=
    List.find?_eq_none.mpr fun row hmem hfits => h row hmem ((row.fits_iff cw).mp hfits)
  simp [decode, hfind]

/-- R46 (1). -/
theorem decode_eq_ok_iff_row (cw : Word) (i : Instr) : decode cw = .ok i ↔
    ∃ row ∈ opcodeRows, (cw &&& row.mask) = row.matchBits ∧ i = row.build (dField cw) := by
  constructor
  · intro hd
    by_contra hno
    have hnone : ∀ row ∈ opcodeRows, (cw &&& row.mask) ≠ row.matchBits := by
      intro row hmem hfits
      have hrow := decode_of_fits hmem ((row.fits_iff cw).mpr hfits)
      exact hno ⟨row, hmem, hfits, Except.ok.inj (hd.symm.trans hrow)⟩
    cases hd.symm.trans (decode_of_no_row hnone)
  · rintro ⟨row, hmem, hfits, rfl⟩
    exact decode_of_fits hmem ((row.fits_iff cw).mpr hfits)

/-- A word is illegal exactly when it is not legal. -/
theorem decode_error_iff_not_ok (cw : Word) : (∃ e, decode cw = .error e) ↔ ¬ ∃ i, decode cw = .ok i := by
  rcases decode cw with e | i <;> simp

/-- R49's first sentence. -/
theorem decode_error_iff_no_row (cw : Word) :
    (∃ e, decode cw = .error e) ↔ ∀ row ∈ opcodeRows, (cw &&& row.mask) ≠ row.matchBits := by
  constructor
  · rintro ⟨e, he⟩ row hmem hfits
    cases he.symm.trans (decode_of_fits hmem ((row.fits_iff cw).mpr hfits))
  · exact fun h => ⟨whyIllegal cw, decode_of_no_row h⟩

/-- The masks of RDREG and WRCTRL let through only the operands these commands have; the other commands are well-formed with
any. -/
theorem build_wellFormed_of_fits {row : OpcodeRow} {op d : Byte} (hmem : row ∈ opcodeRows)
    (hfits : row.fits (op ++ d) = true) : (row.build d).wellFormed = true := by
  simp only [opcodeRows_eq, List.mem_cons, List.not_mem_nil, or_false] at hmem
  rcases hmem with rfl | rfl | rfl | rfl | rfl | rfl | rfl | rfl | rfl | rfl | rfl | rfl
  any_goals rfl
  · rw [fits_append, mask_register, Bool.and_eq_true] at hfits
    exact hfits.2
  · rw [fits_append, mask_ctrl, Bool.and_eq_true] at hfits
    exact hfits.2

theorem wellFormed_of_decode {cw : Word} {i : Instr} (h : decode cw = .ok i) : i.wellFormed = true := by
  obtain ⟨row, hmem, hfits, rfl⟩ := (decode_eq_ok_iff_row cw i).mp h
  rw [← row.fits_iff, ← word_eq_append cw] at hfits
  exact build_wellFormed_of_fits hmem hfits

end Sys2Proof
end

section
/-! The legal words by their two fields (R49): twelve values of `OP`, and how many operand bytes each of them admits. -/

namespace Sys2Proof

/-- The values of `OP` of R47. -/
def legalOps : List Byte :=
  [0x00#8, 0x10#8, 0x11#8, 0x12#8, 0x20#8, 0x21#8, 0x22#8, 0x30#8, 0x31#8, 0x32#8, 0x40#8, 0x41#8]

/-- The values of `OP` of the commands without an operand. -/
def bareOps : List Byte := [0x00#8, 0x10#8, 0x12#8, 0x20#8, 0x22#8, 0x30#8, 0x32#8]

/-- The operand bytes that `op` admits are those below this number. -/
def operandCount (op : Byte) : Nat :=
  if op ∈ bareOps then 1 else if op = 0x40#8 then 8 else if op = 0x41#8 then 2 else 256

theorem operandCount_le (op : Byte) : operandCount op ≤ 256 := by
  unfold operandCount
  split_ifs <;> decide

theorem toNat_eq_zero_iff (d : Byte) : d.toNat = 0 ↔ d = 0x00#8 :=
  BitVec.toNat_inj (y := 0x00#8)

/-- An operand is not admitted exactly in the cases (b) to (d) of R49. -/
theorem operandCount_le_toNat_iff (op d : Byte) : operandCount op ≤ d.toNat ↔
    (op ∈ bareOps ∧ d ≠ 0x00#8) ∨ (op = 0x40#8 ∧ 7 < d.toNat) ∨ (op = 0x41#8 ∧ 1 < d.toNat) := by
  have hd := d.isLt
  by_cases hbare : op ∈ bareOps
  · have h40 : op ≠ 0x40#8 := ne_of_mem_of_not_mem hbare (by decide)
    have h41 : op ≠ 0x41#8 := ne_of_mem_of_not_mem hbare (by decide)
    simp [operandCount, hbare, h40, h41, Nat.one_le_iff_ne_zero, toNat_eq_zero_iff]
  · by_cases h40 : op = 0x40#8
    · subst h40
      simp [operandCount, bareOps, Nat.succ_le_iff]
    · by_cases h41 : op = 0x41#8
      · subst h41
        simp [operandCount, bareOps, Nat.succ_le_iff]
      · simp [operandCount, hbare, h40, h41, hd]

theorem exists_ite_eq_ok_iff (p : Prop) [Decidable p] (i : Instr) (e : DecodeError) :
    (∃ j, (if p then Except.ok i else Except.error e) = Except.ok j) ↔ p := by
  by_cases h : p <;> simp [h]

theorem decode_append_ok_iff (op d : Byte) :
    (∃ i, decode (op ++ d) = .ok i) ↔ op ∈ legalOps ∧ d.toNat < operandCount op := by
  rw [decode_append]
  by_cases hop : op ∈ legalOps
  · have hd := d.isLt
    simp only [hop, true_and]
    simp only [legalOps, List.mem_cons, List.not_mem_nil, or_false] at hop
    rcases hop with rfl | rfl | rfl | rfl | rfl | rfl | rfl | rfl | rfl | rfl | rfl | rfl <;>
      simp [operandCount, bareOps, exists_ite_eq_ok_iff, toNat_eq_zero_iff, Nat.lt_succ_iff, hd]
  · simp only [hop, false_and, iff_false]
    simp only [legalOps, List.mem_cons, List.not_mem_nil, or_false, not_or] at hop
    simp [hop]

/-- R49's cases (a) to (d). -/
theorem decode_error_iff_cases (cw : Word) : (∃ e, decode cw = .error e) ↔
    opField cw ∉ legalOps ∨ (opField cw ∈ bareOps ∧ dField cw ≠ 0x00#8) ∨
    (opField cw = 0x40#8 ∧ 7 < (dField cw).toNat) ∨ (opField cw = 0x41#8 ∧ 1 < (dField cw).toNat) := by
  have hok := decode_append_ok_iff (opField cw) (dField cw)
  rw [word_eq_append] at hok
  rw [decode_error_iff_not_ok, hok, not_and_or, Nat.not_lt, operandCount_le_toNat_iff]

/-- The operand bytes that `op` admits. -/
def legalOperands (op : Byte) : List Byte := (List.range (operandCount op)).map (BitVec.ofNat 8)

theorem mem_legalOperands_iff (op d : Byte) : d ∈ legalOperands op ↔ d.toNat < operandCount op := by
  simp only [legalOperands, List.mem_map, List.mem_range]
  constructor
  · rintro ⟨n, hn, rfl⟩
    exact (BitVec.toNat_ofNat n 8 ▸ Nat.mod_le n _).trans_lt hn
  · exact fun hd => ⟨d.toNat, hd, by simp⟩

theorem nodup_legalOperands (op : Byte) : (legalOperands op).Nodup := by
  refine List.nodup_range.map_on fun m hm n hn h => ?_
  have hcount := operandCount_le op
  rw [List.mem_range] at hm hn
  simpa [Nat.mod_eq_of_lt (hm.trans_le hcount), Nat.mod_eq_of_lt (hn.trans_le hcount)] using congrArg BitVec.toNat h

/-- The legal words, `OP` by `OP`. -/
def legalWords : List Word := legalOps.flatMap fun op => (legalOperands op).map (op ++ ·)

theorem append_mem_legalWords_iff (op d : Byte) :
    (op ++ d : Word) ∈ legalWords ↔ op ∈ legalOps ∧ d.toNat < operandCount op := by
  simp [legalWords, append_inj, mem_legalOperands_iff]

theorem mem_legalWords_iff (cw : Word) : cw ∈ legalWords ↔ ∃ i, decode cw = .ok i := by
  rw [← word_eq_append cw, append_mem_legalWords_iff, decode_append_ok_iff]

/-- Words of one `OP` differ in `D`, words of two in `OP`. -/
theorem nodup_legalWords : legalWords.Nodup := by
  refine List.nodup_flatMap.mpr ⟨fun op _ => ?_, ?_⟩
  · exact (nodup_legalOperands op).map fun d d' h => ((append_inj op d op d').mp h).2
  · have hops : legalOps.Nodup := by decide
    refine hops.imp fun {op op'} hne => List.disjoint_left.mpr fun cw hcw hcw' => ?_
    obtain ⟨d, _, rfl⟩ := List.mem_map.mp hcw
    obtain ⟨d', _, heq⟩ := List.mem_map.mp hcw'
    exact hne ((append_inj op' d' op d).mp heq).1.symm

/-- Seven commands without an operand, three with any byte, eight registers, two values of `CTRL`. -/
theorem length_legalWords : legalWords.length = 785 := by
  have hcounts : (legalOps.map operandCount).sum = 7 * 1 + 3 * 256 + 8 + 2 := by decide
  simpa [legalWords, legalOperands, List.length_flatMap] using hcounts

/-- Settles O9: the four cases by the fields of the word, the rows by the decoder's search, one fault for all of them, and
the legal words listed. -/
theorem illegalWordsAreTheFourCases : Obligations.IllegalWordsAreTheFourCases :=
  ⟨decode_error_iff_cases, decode_error_iff_no_row, fun _ _ s he => Machine.execWord_error he s,
    legalWords, nodup_legalWords, length_legalWords, fun cw => (mem_legalWords_iff cw).symm⟩

end Sys2Proof
end

section
/-! A command word's three steps (R46), and the items a command appends to the output stream (R51). -/

namespace Sys2Proof.Machine

/-- Settles O10: the table's rows are disjoint, and each outcome of the decoder and of the mode check has its lemma. -/
theorem commandWordIsExecutedInThreeSteps : Obligations.CommandWordIsExecutedInThreeSteps := by
  refine ⟨fun cw row row' hmem hmem' hfits hfits' => ?_, decode_eq_ok_iff_row, fun cw s hno => ?_,
    fun cw i m s hd hi hne => ?_, fun cw i s hd hm => ?_⟩
  · rw [row_eq_of_fits hmem hmem' hfits hfits']
  · exact execWord_error (decode_of_no_row hno) s
  · rw [execWord_ok hd, exec_eq_afterSeq hi hne]
  · obtain ⟨t, ht, _, hseq, hill⟩ := exec_of_modeAllows (wellFormed_of_decode hd) hm
    exact ⟨execWord_ok hd s, t, ht, hill, hseq⟩

/-- The items of a well-formed command that the mode check lets through, from the state before it (R47's column Emits). -/
def emittedItems : Instr → State → List Item
  | .crcEnd, s => [⟨.crcHi, (adjustedBytes s.acc).1⟩, ⟨.crcLo, (adjustedBytes s.acc).2⟩]
  | .txByte c, _ => [⟨.txd, c⟩]
  | .txEnd, s => [⟨.txd, (adjustedBytes s.acc).1⟩, ⟨.txd, (adjustedBytes s.acc).2⟩, ⟨.txd, Config.term⟩]
  | .rxByte _, s => if s.rxn = 4 ∧ s.mok = true then [⟨.body, s.dl2⟩] else []
  | .rxEnd, s => [⟨.verdict, rxVerdict s⟩]
  | .rdreg r, s => [⟨.reg, (readReg r s).getD 0x00#8⟩]
  | .nop, _ | .crcStart, _ | .crcByte _, _ | .txStart, _ | .rxStart, _ | .wrctrl _, _ => []

theorem length_emittedItems_le (i : Instr) (s : State) : (emittedItems i s).length ≤ 3 := by
  cases i with
  | rxByte d => simp only [emittedItems]; split_ifs <;> simp
  | _ => simp [emittedItems]

@[simp] theorem leaveDelayLine_out (s : State) :
    (leaveDelayLine s).out = s.out ++ if s.rxn = 4 ∧ s.mok = true then [⟨.body, s.dl2⟩] else [] := by
  by_cases h : s.rxn = 4
  · simp [leaveDelayLine_full h, h]
  · simp [leaveDelayLine_short h, h]

theorem exec_out_of_modeAllows {i : Instr} {s t : State} (hwf : i.wellFormed = true) (hm : modeAllows i s.mode = true)
    (ht : exec i s = .next t) : t.out = s.out ++ emittedItems i s := by
  suffices h : ∃ u, exec i s = .next u ∧ u.out = s.out ++ emittedItems i s by
    obtain ⟨u, hu, hout⟩ := h
    cases ht.symm.trans hu
    exact hout
  cases i with
  | nop | crcStart | txStart | rxStart => exact ⟨_, rfl, (List.append_nil _).symm⟩
  | crcByte c => exact ⟨_, exec_crcByte_of_crc ((modeAllows_of_required rfl _).mp hm) c, (List.append_nil _).symm⟩
  | crcEnd => exact ⟨_, exec_crcEnd_of_crc ((modeAllows_of_required rfl _).mp hm), by simp [emittedItems]⟩
  | txByte c => exact ⟨_, exec_txByte_of_tx ((modeAllows_of_required rfl _).mp hm) c, rfl⟩
  | txEnd => exact ⟨_, exec_txEnd_of_tx ((modeAllows_of_required rfl _).mp hm), by simp [emittedItems]⟩
  | rxByte d => exact ⟨_, exec_rxByte_of_rx ((modeAllows_of_required rfl _).mp hm) d, by simp [emittedItems]⟩
  | rxEnd => exact ⟨_, exec_rxEnd_of_rx ((modeAllows_of_required rfl _).mp hm), rfl⟩
  | rdreg r =>
    obtain ⟨v, hv, hexec⟩ := exec_rdreg_of_le (of_decide_eq_true hwf) s
    exact ⟨_, hexec, by simp [emittedItems, hv]⟩
  | wrctrl v => exact ⟨_, exec_wrctrl_of_le (of_decide_eq_true hwf) s, (List.append_nil _).symm⟩

/-- Settles O36: an admitted command appends its `emittedItems`, one that is not the ERR item of SEQ, and an illegal word
the ERR item of ILL. -/
theorem everyCommandEmitsItsItems : Obligations.EveryCommandEmitsItsItems := by
  refine ⟨fun i s t hwf ht => ?_, fun cw e s t he ht => ?_⟩
  · cases hm : modeAllows i s.mode with
    | false =>
      obtain ⟨m, hi, hne⟩ := modeAllows_eq_false_iff.mp hm
      rw [exec_eq_afterSeq hi hne, Host.Outcome.next.injEq] at ht
      subst ht
      exact ⟨[⟨.err, 0x02#8⟩], rfl, by simp, rfl⟩
    | true =>
      refine ⟨emittedItems i s, exec_out_of_modeAllows hwf hm ht, length_emittedItems_le i s, ?_⟩
      cases i with
      | rxByte d => exact apply_ite (List.map Item.kind) _ _ _
      | _ => rfl
  · rw [execWord_error he, Host.Outcome.next.injEq] at ht
    subst ht
    rfl

end Sys2Proof.Machine
end

section
/-! The accumulator's arithmetic (R66 to R72, R80): the top nibble that selects a table word, the fold of the byte update,
zero bytes, and the range of avoidance. -/

namespace Sys2Proof.Machine

theorem topNibble_eq_shiftRight (acc : Word) : (acc.extractLsb' 12 4).zeroExtend 16 = acc >>> 12 := by
  apply BitVec.eq_of_toNat_eq
  have hacc := acc.isLt
  simp [Nat.shiftRight_eq_div_pow]
  omega

/-- Only four bits are left of 16 after a shift by 12, so R67's mask removes nothing. -/
theorem shiftRight_twelve_and_mask (acc : Word) : (acc >>> 12) &&& 0xF#16 = acc >>> 12 := by
  apply BitVec.eq_of_toNat_eq
  have hlt : acc.toNat >>> 12 < 2 ^ 4 := by
    rw [Nat.shiftRight_eq_div_pow]
    exact Nat.div_lt_of_lt_mul acc.isLt
  rw [BitVec.toNat_and, BitVec.toNat_ushiftRight]
  exact Nat.and_two_pow_sub_one_of_lt_two_pow hlt

@[simp] theorem crcRaw_nil : crcRaw [] = 0x0000#16 := rfl

theorem crcRaw_append (xs ys : List Byte) : crcRaw (xs ++ ys) = ys.foldl absorb (crcRaw xs) := List.foldl_append

theorem crcRaw_append_singleton (data : List Byte) (c : Byte) : crcRaw (data ++ [c]) = absorb (crcRaw data) c :=
  crcRaw_append data [c]

/-- A zero accumulator stays zero over zero bytes. -/
theorem crcRaw_replicate_zero (n : Nat) : crcRaw (List.replicate n 0x00#8) = 0x0000#16 := by
  induction n with
  | zero => rfl
  | succ n ih => rw [List.replicate_succ', crcRaw_append_singleton, ih, absorb_zero]

theorem crcRaw_replicate_zero_append (n : Nat) (data : List Byte) :
    crcRaw (List.replicate n 0x00#8 ++ data) = crcRaw data := by
  rw [crcRaw_append, crcRaw_replicate_zero, crcRaw]

theorem compute_eq_of_crcRaw_eq {xs ys : List Byte} (h : crcRaw xs = crcRaw ys) : compute xs = compute ys :=
  congrArg adjustedBytes h

theorem adj_adj (b : Byte) : adj (adj b) = adj b := adj_of_not_reserved (adj_not_reserved b)

end Sys2Proof.Machine
end

section
/-! Commands on the port: a well-formed command's word is executed as the command, a word with an operand where none is
admitted faults ILL, and NOP, RDREG and WRCTRL leave an open operation alone. -/

namespace Sys2Proof

/-- The statement made per instruction, for every instruction. -/
theorem rowFits (i : Instr) : Laws.RowFits.Statement i := by
  cases i with
  | nop => exact Laws.RowFits.nop
  | crcStart => exact Laws.RowFits.crcStart
  | crcByte c => exact Laws.RowFits.crcByte c
  | crcEnd => exact Laws.RowFits.crcEnd
  | txStart => exact Laws.RowFits.txStart
  | txByte c => exact Laws.RowFits.txByte c
  | txEnd => exact Laws.RowFits.txEnd
  | rxStart => exact Laws.RowFits.rxStart
  | rxByte d => exact Laws.RowFits.rxByte d
  | rxEnd => exact Laws.RowFits.rxEnd
  | rdreg r => exact Laws.RowFits.rdreg r
  | wrctrl v => exact Laws.RowFits.wrctrl v

/-- A well-formed command's row fits its word, and builds the command from it. -/
theorem decode_encode_of_wellFormed {i : Instr} (hwf : i.wellFormed = true) : decode (encode i) = .ok i := by
  obtain ⟨row, hmem, _, hbuild, hfits⟩ := rowFits i
  rw [decode_of_fits hmem (hfits.trans hwf), hbuild]

namespace Machine

theorem step_of_pending_encode {i : Instr} {s : State} {rest : List HostInput} (hwf : i.wellFormed = true)
    (hp : s.pending = .word (encode i) :: rest) : step s = exec i (s.setPending rest) := by
  rw [step_word hp, execWord_ok (decode_encode_of_wellFormed hwf)]

/-- R49 (b). -/
theorem execWord_of_operand_not_zero {op d : Byte} (hop : op ∈ bareOps) (hd : d ≠ 0x00#8) (s : State) :
    execWord (op ++ d) s = .next (afterIll s) := by
  have hcase : opField (op ++ d) ∈ bareOps ∧ dField (op ++ d) ≠ 0x00#8 := by
    rw [opField_append, dField_append]
    exact ⟨hop, hd⟩
  obtain ⟨e, he⟩ := (decode_error_iff_cases (op ++ d)).mpr (.inr (.inl hcase))
  exact execWord_error he s

/-- R77, R89: what makes a command a bystander of the operations that read `ACC`. -/
theorem exec_of_isBystander {i : Instr} (hwf : i.wellFormed = true) (hi : isBystander i = true) (s : State) :
    ∃ t, exec i s = .next t ∧ t.pending = s.pending ∧ t.mode = s.mode ∧ t.acc = s.acc := by
  cases i with
  | nop => exact ⟨s, rfl, rfl, rfl, rfl⟩
  | rdreg r =>
    obtain ⟨v, _, hv⟩ := exec_rdreg_of_le (of_decide_eq_true hwf) s
    exact ⟨_, hv, rfl, rfl, rfl⟩
  | wrctrl v => exact ⟨_, exec_wrctrl_of_le (of_decide_eq_true hwf) s, rfl, rfl, rfl⟩
  | _ => cases hi

end Machine
end Sys2Proof
end

section
/-! The CRC operation (R74 to R77): its three commands, and the run of a whole operation. -/

namespace Sys2Proof.Machine

theorem crcPayload_of_isBystander {i : Instr} (hi : isBystander i = true) : crcPayload i = none := by
  cases i with
  | crcByte c => cases hi
  | _ => rfl

theorem crcPayload_eq_some_iff {i : Instr} {c : Byte} : crcPayload i = some c ↔ i = .crcByte c := by
  cases i <;> simp [crcPayload]

/-- The commands that R77 lets stand between CRC_START and CRC_END. -/
def insideCrc (i : Instr) : Prop := i.wellFormed = true ∧ (isBystander i = true ∨ (crcPayload i).isSome = true)

/-- One command inside an open CRC operation: `ACC` absorbs its payload byte, if it has one, and the operation stays open. -/
theorem exec_of_insideCrc {i : Instr} {s : State} (hi : insideCrc i) (hm : s.mode = .crc) :
    ∃ t, exec i s = .next t ∧ t.pending = s.pending ∧ t.mode = .crc ∧
      t.acc = (crcPayload i).toList.foldl absorb s.acc := by
  obtain ⟨hwf, hby | hpay⟩ := hi
  · obtain ⟨t, ht, hpending, hmode, hacc⟩ := exec_of_isBystander hwf hby s
    exact ⟨t, ht, hpending, hmode.trans hm, by rw [crcPayload_of_isBystander hby, hacc]; rfl⟩
  · obtain ⟨c, hc⟩ := Option.isSome_iff_exists.mp hpay
    obtain rfl := crcPayload_eq_some_iff.mp hc
    exact ⟨_, exec_crcByte_of_crc hm c, rfl, hm, rfl⟩

/-- The commands inside an open CRC operation fold their payload bytes into `ACC`, whatever it holds. -/
theorem runSteps_insideCrc {is : List Instr} {s : State} {rest : List HostInput} (his : ∀ i ∈ is, insideCrc i)
    (hm : s.mode = .crc) (hp : s.pending = presented is ++ rest) :
    ∃ t, runSteps is.length s = .next t ∧ t.pending = rest ∧ t.mode = .crc ∧
      t.acc = (is.filterMap crcPayload).foldl absorb s.acc := by
  induction is generalizing s with
  | nil => exact ⟨s, rfl, hp, hm, rfl⟩
  | cons i is ih =>
    obtain ⟨hi, his⟩ := List.forall_mem_cons.mp his
    obtain ⟨u, hu, hup, hum, huacc⟩ := exec_of_insideCrc (s := s.setPending (presented is ++ rest)) hi hm
    obtain ⟨t, ht, htp, htm, htacc⟩ := ih his hum hup
    obtain ⟨hwf, _⟩ := hi
    have hstep : step s = .next u := (step_of_pending_encode hwf hp).trans hu
    have hbytes : (i :: is).filterMap crcPayload = (crcPayload i).toList ++ is.filterMap crcPayload := by
      cases hc : crcPayload i <;> simp [hc]
    refine ⟨t, (runSteps_succ hstep is.length).trans ht, htp, htm, ?_⟩
    rw [hbytes, List.foldl_append, htacc, huacc, State.setPending_acc]

/-- R76 as one equation: the two items, `MODE`, and nothing else. -/
theorem exec_crcEnd_eq {s : State} (hm : s.mode = .crc) : exec .crcEnd s =
    .next { s with mode := .idle,
                   out := s.out ++ [⟨.crcHi, adj (highByte s.acc)⟩, ⟨.crcLo, adj (lowByte s.acc)⟩] } := by
  rw [exec_crcEnd_of_crc hm]
  simp [State.setMode, State.emit, adjustedBytes]

/-- R76, R77: the CRC_END that closes the operation. -/
theorem step_crcEnd_of_crc {s : State} {rest : List HostInput} (hm : s.mode = .crc)
    (hp : s.pending = .word (encode .crcEnd) :: rest) : ∃ t, step s = .next t ∧ t.mode = .idle ∧
      t.out = s.out ++ [⟨.crcHi, (adjustedBytes s.acc).1⟩, ⟨.crcLo, (adjustedBytes s.acc).2⟩] :=
  ⟨_, (step_of_pending_encode rfl hp).trans (exec_crcEnd_eq hm), rfl, rfl⟩

/-- Settles O48: CRC_START opens the operation from any state, the commands inside it fold their bytes from 0x0000, and a
CRC_END delivers the two adjusted bytes of the result. -/
theorem crcOperationComputesTheChecksum : Obligations.CrcOperationComputesTheChecksum := by
  intro is s rest his hp
  obtain ⟨t, ht, htp, htm, htacc⟩ := runSteps_insideCrc (is := is) (rest := rest)
    (s := ((s.setPending (presented is ++ rest)).setAcc 0x0000#16).setMode .crc) his rfl rfl
  have hacc : t.acc = crcRaw (is.filterMap crcPayload) := htacc
  have hstart : step s = .next (((s.setPending (presented is ++ rest)).setAcc 0x0000#16).setMode .crc) :=
    step_of_pending_encode (i := .crcStart) rfl hp
  refine ⟨t, (runSteps_succ hstart is.length).trans ht, htp, hacc, htm, fun rest' hrest => ?_⟩
  rw [compute, ← hacc]
  exact step_crcEnd_of_crc htm (htp.trans hrest)

end Sys2Proof.Machine
end

section
/-! The Checksum Engine's statements, functions and commands. -/

namespace Sys2Proof.Machine

/-- Settles O18: zero bytes from a zero accumulator leave it at zero, and the data is then absorbed as from the start. -/
theorem leadingZeroBytesAreNotDetected : Obligations.LeadingZeroBytesAreNotDetected :=
  fun n data => ⟨crcRaw_replicate_zero n, compute_eq_of_crcRaw_eq (crcRaw_replicate_zero_append n data)⟩

/-- Settles O12: both forms of `da` are the shift by 12, with a mask that removes nothing or in two parts. -/
theorem nibbleStepShiftsAndReadsTheTable : Obligations.NibbleStepShiftsAndReadsTheTable := by
  refine ⟨fun _ _ => rfl, fun acc => ?_, fun acc => ?_⟩
  · rw [topNibble_eq_shiftRight, shiftRight_twelve_and_mask]
  · rw [topNibble_eq_shiftRight]
    exact (BitVec.shiftRight_add acc 8 4).symm

/-- Settles O13: the byte update by its definition, and the fold of one more byte. -/
theorem rawChecksumIsTheFoldOfTheByteUpdate : Obligations.RawChecksumIsTheFoldOfTheByteUpdate :=
  ⟨fun _ _ => rfl, crcRaw_nil, crcRaw_append_singleton, by decide, by decide⟩

/-- Settles O14: the reserved bytes one by one, and an adjusted byte is a byte that is not adjusted. -/
theorem avoidanceRaisesTheReservedBytesOnly : Obligations.AvoidanceRaisesTheReservedBytesOnly := by
  refine ⟨rfl, rfl, rfl, fun b hmarker hterm hlf => ?_, adj_adj⟩
  have hb : b ∉ Config.reserved := by simp [Config.reserved, hmarker, hterm, hlf]
  exact adj_of_not_reserved hb

/-- Settles O15, by the definitions of `compute` and of the two halves. -/
theorem computeAdjustsTheHalvesOfTheRawChecksum : Obligations.ComputeAdjustsTheHalvesOfTheRawChecksum :=
  fun _ => rfl

/-- Settles O16: both bytes are adjusted bytes. -/
theorem checksumBytesAreNeverReserved : Obligations.ChecksumBytesAreNeverReserved :=
  fun _ => ⟨adj_not_reserved _, adj_not_reserved _⟩

/-- Settles O21: CRC_START writes `ACC` and `MODE` with constants, so a second one writes them again. -/
theorem crcStartOpensAChecksum : Obligations.CrcStartOpensAChecksum := by
  refine ⟨rfl, fun _ => rfl, fun d s hd => execWord_of_operand_not_zero (by decide) hd s, fun s t ht => ?_,
    fun t ht => ?_⟩
  · cases ht
    rfl
  · cases ht
    exact ⟨rfl, rfl, rfl⟩

/-- Settles O22: the word is the encoding of CRC_BYTE, and the mode check decides between absorbing and SEQ. -/
theorem crcByteAbsorbsItsOperand : Obligations.CrcByteAbsorbsItsOperand := by
  refine ⟨fun c => ?_, fun c s hm => exec_crcByte_of_crc hm c, fun c s hm => exec_eq_afterSeq rfl hm,
    absorb_zero, by decide, by decide, by decide⟩
  have hword : 0x1100#16 + c.zeroExtend 16 = encode (.crcByte c) := append_zero_add 0x11#8 c
  rw [hword, decode_encode_of_wellFormed rfl]

/-- Settles O23: in mode CRC the two items and mode IDLE, in which a second CRC_END faults SEQ. -/
theorem crcEndDeliversTheAdjustedBytes : Obligations.CrcEndDeliversTheAdjustedBytes := by
  refine ⟨rfl, fun s hm => exec_crcEnd_eq hm, fun s hm => exec_eq_afterSeq rfl hm,
    fun d s hd => execWord_of_operand_not_zero (by decide) hd s, fun s t hm ht => ?_,
    rfl, rfl, rfl, by decide, rfl⟩
  rw [exec_crcEnd_eq hm, Host.Outcome.next.injEq] at ht
  subst ht
  exact exec_eq_afterSeq (m := .crc) rfl (by simp)

end Sys2Proof.Machine
end

section
/-! The run of a list of well-formed commands, packaged once: an invariant that speaks of the commands executed so far, and
that each command of the list keeps, holds after the run of the whole list. -/

namespace Sys2Proof.Machine

theorem presented_append (is js : List Instr) : presented (is ++ js) = presented is ++ presented js := List.map_append

/-- The invariant is stepped from a state with any plan `p` of the host left on the port, for the command's word is taken
from the port before it is executed. -/
theorem runSteps_presented {inv : List Instr → State → Prop} {is done : List Instr} {s : State} {rest : List HostInput}
    (hwf : ∀ i ∈ is, i.wellFormed = true)
    (keeps : ∀ i ∈ is, ∀ done s p, inv done s →
      ∃ t, exec i (s.setPending p) = .next t ∧ t.pending = p ∧ inv (done ++ [i]) t)
    (hinv : inv done s) (hp : s.pending = presented is ++ rest) :
    ∃ t, runSteps is.length s = .next t ∧ t.pending = rest ∧ inv (done ++ is) t := by
  induction is generalizing done s with
  | nil => exact ⟨s, rfl, hp, (List.append_nil done).symm ▸ hinv⟩
  | cons i is ih =>
    obtain ⟨hwfi, hwf⟩ := List.forall_mem_cons.mp hwf
    obtain ⟨keepsi, keeps⟩ := List.forall_mem_cons.mp keeps
    obtain ⟨u, hu, hup, huinv⟩ := keepsi done s (presented is ++ rest) hinv
    obtain ⟨t, ht, htp, htinv⟩ := ih hwf keeps huinv hup
    have hstep : step s = .next u := (step_of_pending_encode hwfi hp).trans hu
    exact ⟨t, (runSteps_succ hstep is.length).trans ht, htp, List.append_cons done i is ▸ htinv⟩

end Sys2Proof.Machine
end

section
/-! The TX operation (R86 to R89): its commands, and what holds while a frame is open. -/

namespace Sys2Proof.Machine

theorem txPayload_of_isBystander {i : Instr} (hi : isBystander i = true) : txPayload i = none := by
  cases i with
  | txByte c => cases hi
  | _ => rfl

theorem txPayload_eq_some_iff {i : Instr} {c : Byte} : txPayload i = some c ↔ i = .txByte c := by
  cases i <;> simp [txPayload]

/-- R88 as one equation: the trailer, `MODE`, and nothing else. -/
theorem exec_txEnd_eq {s : State} (hm : s.mode = .tx) : exec .txEnd s =
    .next { s with mode := .idle,
                   out := s.out ++ [⟨.txd, adj (highByte s.acc)⟩, ⟨.txd, adj (lowByte s.acc)⟩, ⟨.txd, Config.term⟩] } := by
  rw [exec_txEnd_of_tx hm]
  simp [State.setMode, State.emit, adjustedBytes]

/-- The items R89 speaks of: all but those of RDREG. -/
def notReg (item : Item) : Bool := item.kind != .reg

/-- The commands that R89 lets stand between TX_START and TX_END. -/
def insideTx (i : Instr) : Prop := i.wellFormed = true ∧ (isBystander i = true ∨ (txPayload i).isSome = true)

theorem requiredMode_of_isBystander {i : Instr} (hi : isBystander i = true) : requiredMode i = none := by
  cases i with
  | nop | rdreg r | wrctrl v => rfl
  | _ => cases hi

theorem emittedItems_of_isBystander {i : Instr} (hi : isBystander i = true) (s : State) :
    (emittedItems i s).filter notReg = [] := by
  cases i with
  | nop | rdreg r | wrctrl v => rfl
  | _ => cases hi

/-- One command inside an open frame: its code byte, if it has one, is absorbed and emitted, and the frame stays open. -/
theorem exec_of_insideTx {i : Instr} {s : State} (hi : insideTx i) (hm : s.mode = .tx) :
    ∃ t new, exec i s = .next t ∧ t.pending = s.pending ∧ t.mode = .tx ∧
      t.acc = (txPayload i).toList.foldl absorb s.acc ∧ t.out = s.out ++ new ∧
      new.filter notReg = (txPayload i).toList.map (Item.mk .txd) := by
  obtain ⟨hwf, hby | hpay⟩ := hi
  · obtain ⟨t, ht, hpending, hmode, hacc⟩ := exec_of_isBystander hwf hby s
    have hout := exec_out_of_modeAllows hwf (modeAllows_of_any (requiredMode_of_isBystander hby) _) ht
    rw [txPayload_of_isBystander hby]
    exact ⟨t, _, ht, hpending, hmode.trans hm, hacc, hout, emittedItems_of_isBystander hby s⟩
  · obtain ⟨c, hc⟩ := Option.isSome_iff_exists.mp hpay
    obtain rfl := txPayload_eq_some_iff.mp hc
    exact ⟨_, [⟨.txd, c⟩], exec_txByte_of_tx hm c, rfl, hm, rfl, rfl, rfl⟩

/-- An open frame, from the TX_START after the items `before` to where the commands `done` have been executed. -/
structure TxOpen (before : List Item) (done : List Instr) (s : State) : Prop where
  mode : s.mode = .tx
  acc : s.acc = crcRaw (done.filterMap txPayload)
  out : ∃ new, s.out = before ++ new ∧ new.filter notReg = (done.filterMap txPayload).map (Item.mk .txd)

/-- R86: a TX_START opens a frame, whatever was open before. -/
theorem step_txStart_open {s : State} {rest : List HostInput} (hp : s.pending = .word (encode .txStart) :: rest) :
    ∃ t, step s = .next t ∧ t.pending = rest ∧ TxOpen s.out [] t :=
  ⟨((s.setPending rest).setAcc 0x0000#16).setMode .tx, step_of_pending_encode (i := .txStart) rfl hp, rfl,
    rfl, rfl, [], (List.append_nil s.out).symm, rfl⟩

theorem TxOpen.exec_insideTx {before : List Item} {done : List Instr} {i : Instr} {s : State} (h : TxOpen before done s)
    (hi : insideTx i) (p : List HostInput) :
    ∃ t, exec i (s.setPending p) = .next t ∧ t.pending = p ∧ TxOpen before (done ++ [i]) t := by
  obtain ⟨hmode, hacc, new, hout, hnew⟩ := h
  obtain ⟨t, newi, ht, htp, htm, htacc, htout, hnewi⟩ := exec_of_insideTx (s := s.setPending p) hi hmode
  have hbytes : (done ++ [i]).filterMap txPayload = done.filterMap txPayload ++ (txPayload i).toList := by
    cases hc : txPayload i <;> simp [hc]
  refine ⟨t, ht, htp, htm, ?_, new ++ newi, ?_, ?_⟩
  · rw [htacc, hbytes, crcRaw_append, State.setPending_acc, hacc]
  · rw [htout, State.setPending_out, hout, List.append_assoc]
  · rw [List.filter_append, hnew, hnewi, hbytes, List.map_append]

/-- R88: the trailer completes the frame of the code, for `ACC` is the raw checksum of the code. -/
theorem TxOpen.step_txEnd {before : List Item} {done : List Instr} {s : State} {rest : List HostInput}
    (h : TxOpen before done s) (hp : s.pending = .word (encode .txEnd) :: rest) :
    ∃ t new, step s = .next t ∧ t.pending = rest ∧ t.mode = .idle ∧ t.acc = crcRaw (done.filterMap txPayload) ∧
      t.out = before ++ new ∧
      new.filter notReg = (encodeFrame (done.filterMap txPayload)).map (Item.mk .txd) := by
  obtain ⟨hmode, hacc, new, hout, hnew⟩ := h
  refine ⟨_, new ++ [⟨.txd, adj (highByte s.acc)⟩, ⟨.txd, adj (lowByte s.acc)⟩, ⟨.txd, Config.term⟩],
    (step_of_pending_encode (i := .txEnd) rfl hp).trans (exec_txEnd_eq hmode), rfl, rfl, hacc, ?_, ?_⟩
  · rw [← List.append_assoc, ← hout]
    rfl
  · rw [List.filter_append, hnew, hacc, encodeFrame, List.map_append]
    rfl

/-- Settles O50: TX_START opens a frame from any state, the commands inside it keep `TxOpen`, and TX_END completes the
frame. -/
theorem txOperationEmitsTheFrame : Obligations.TxOperationEmitsTheFrame := by
  intro is s rest his hp
  have hplan : presented (is ++ [.txEnd]) ++ rest = presented is ++ .word (encode .txEnd) :: rest := by
    rw [presented_append, List.append_assoc]
    rfl
  obtain ⟨u, hu, hup, huopen⟩ := step_txStart_open hp
  obtain ⟨v, hv, hvp, hvopen⟩ := runSteps_presented (fun i hi => (his i hi).left)
    (fun i hi _ _ p hopen => hopen.exec_insideTx (his i hi) p) huopen (hup.trans hplan)
  obtain ⟨t, new, ht, htp, htm, htacc, hout, hnew⟩ := hvopen.step_txEnd hvp
  have hrun : runSteps (is.length + 2) s = .next t := by
    rw [runSteps_succ hu, runSteps_append hv, runSteps_succ ht, runSteps_zero]
  exact ⟨t, new, hrun, htp, hout, hnew, htm, htacc⟩

end Sys2Proof.Machine
end

section
/-! The Frame Encoder's statements: its three commands and the outbound frame. -/

namespace Sys2Proof.Machine

/-- Settles O24: TX_START writes `ACC` and `MODE`, and its word has no operand. -/
theorem txStartOpensAnOutboundFrame : Obligations.TxStartOpensAnOutboundFrame := by
  refine ⟨rfl, fun _ => rfl, fun d s hd => execWord_of_operand_not_zero (by decide) hd s, fun t ht => ?_⟩
  cases ht
  exact ⟨rfl, rfl⟩

/-- Settles O25: the word is the encoding of TX_BYTE, and the mode check decides between emitting and SEQ. -/
theorem txByteEmitsAndAbsorbsItsOperand : Obligations.TxByteEmitsAndAbsorbsItsOperand := by
  refine ⟨fun c => ?_, fun c s hm => exec_txByte_of_tx hm c, fun c s hm => exec_eq_afterSeq rfl hm, by decide⟩
  have hword : 0x2100#16 + c.zeroExtend 16 = encode (.txByte c) := append_zero_add 0x21#8 c
  rw [hword, decode_encode_of_wellFormed rfl]

/-- Settles O26: in mode TX the trailer and mode IDLE, and the bytes of the trailer's checksum are adjusted bytes. -/
theorem txEndEmitsTheTrailer : Obligations.TxEndEmitsTheTrailer := by
  refine ⟨rfl, fun s hm => exec_txEnd_eq hm, fun s hm => exec_eq_afterSeq rfl hm,
    fun d s hd => execWord_of_operand_not_zero (by decide) hd s, rfl, rfl, rfl, fun b => ?_⟩
  simpa [Config.reserved] using adj_not_reserved b

/-- Settles O49: the frame by its definition, and the checksum of the rule's example computed. -/
theorem frameIsCodeChecksumTerminator : Obligations.FrameIsCodeChecksumTerminator :=
  ⟨fun _ => ⟨rfl, List.length_append⟩, by decide⟩

end Sys2Proof.Machine
end

section
/-! The functions of a whole buffer (R95 to R97, R101), by two readings of it: a buffer of at least four bytes is one
byte, the body, and three bytes; and the bytes counted from the end are the ones the delay line holds. -/

namespace Sys2Proof.Machine

theorem markerOk_iff (raw : List Byte) : markerOk raw = true ↔ raw.head? = some Config.marker := beq_iff_eq

theorem termOk_iff (raw : List Byte) : termOk raw = true ↔ raw.getLast? = some Config.term := beq_iff_eq

theorem length_frameBody (raw : List Byte) : (frameBody raw).length = raw.length - 4 := by
  unfold frameBody
  split_ifs with h
  · rw [List.length_drop, List.length_take]
    omega
  · rw [List.length_nil]
    omega

theorem frameBody_of_length_le {raw : List Byte} (h : raw.length ≤ 4) : frameBody raw = [] :=
  List.eq_nil_of_length_eq_zero (by rw [length_frameBody]; omega)

/-- R96: the four parts of a buffer that is long enough to have them. -/
theorem exists_parts_of_four_le {raw : List Byte} (h : 4 ≤ raw.length) :
    ∃ first body hi lo last, raw = [first] ++ body ++ [hi, lo, last] := by
  obtain ⟨first, tail, rfl⟩ := List.exists_cons_of_length_pos (by omega : 0 < raw.length)
  rw [List.length_cons] at h
  obtain ⟨hi, lo, last, htrailer⟩ := List.length_eq_three.mp
    (show (tail.drop (tail.length - 3)).length = 3 by rw [List.length_drop]; omega)
  refine ⟨first, tail.take (tail.length - 3), hi, lo, last, ?_⟩
  rw [← htrailer, List.append_assoc, List.take_append_drop]
  rfl

@[simp] theorem frameBody_parts (first hi lo last : Byte) (body : List Byte) :
    frameBody ([first] ++ body ++ [hi, lo, last]) = body := by
  simp [frameBody]

@[simp] theorem markerOk_parts (first hi lo last : Byte) (body : List Byte) :
    markerOk ([first] ++ body ++ [hi, lo, last]) = (first == Config.marker) := by
  simp [markerOk]

@[simp] theorem termOk_parts (first hi lo last : Byte) (body : List Byte) :
    termOk ([first] ++ body ++ [hi, lo, last]) = (last == Config.term) := by
  rw [termOk, List.getLast?_append]
  rfl

/-- R95: what a successful strip says of its buffer. -/
theorem validateAndStrip_eq_ok_iff (raw body : List Byte) : validateAndStrip raw = .ok body ↔
    markerOk raw = true ∧ termOk raw = true ∧ frameBody raw = body := by
  rw [← and_assoc, ← Bool.and_eq_true, validateAndStrip]
  cases markerOk raw && termOk raw <;> simp

theorem exists_validateAndStrip_eq_ok_iff (raw : List Byte) : (∃ body, validateAndStrip raw = .ok body) ↔
    raw.head? = some Config.marker ∧ raw.getLast? = some Config.term := by
  simp [validateAndStrip_eq_ok_iff, markerOk_iff, termOk_iff]

/-- R95: the strip has one error. -/
theorem validateAndStrip_eq_error_of_not_ok {raw : List Byte} (h : ¬ ∃ body, validateAndStrip raw = .ok body) :
    validateAndStrip raw = .error .malformedFrame := by
  unfold validateAndStrip at h ⊢
  split_ifs at h ⊢ with hf
  · exact absurd ⟨_, rfl⟩ h
  · rfl

/-- The byte `k` places before the last one, 0x00 where there is none. -/
def byteFromEnd (raw : List Byte) (k : Nat) : Byte := raw.reverse.getD k 0x00#8

@[simp] theorem byteFromEnd_nil (k : Nat) : byteFromEnd [] k = 0x00#8 := rfl

@[simp] theorem byteFromEnd_append_zero (raw : List Byte) (d : Byte) : byteFromEnd (raw ++ [d]) 0 = d := by
  simp [byteFromEnd]

@[simp] theorem byteFromEnd_append_succ (raw : List Byte) (d : Byte) (k : Nat) :
    byteFromEnd (raw ++ [d]) (k + 1) = byteFromEnd raw k := by
  simp [byteFromEnd]

theorem getElem?_length_sub {raw : List Byte} {k : Nat} (h : k < raw.length) :
    raw[raw.length - (k + 1)]? = some (byteFromEnd raw k) := by
  have hk : k < raw.reverse.length := by rwa [List.length_reverse]
  rw [byteFromEnd, List.getD_eq_getElem _ _ hk, ← List.getElem?_eq_getElem hk, List.getElem?_reverse h,
    Nat.sub_sub, Nat.add_comm 1 k]

/-- R102 writes the delay line with the bytes counted from the front. -/
theorem byteFromEnd_eq_getD (raw : List Byte) (k : Nat) : byteFromEnd raw k =
    if k + 1 ≤ raw.length then raw.getD (raw.length - (k + 1)) 0x00#8 else 0x00#8 := by
  split_ifs with h
  · rw [List.getD_eq_getElem?_getD, getElem?_length_sub h, Option.getD_some]
  · exact List.getD_eq_default _ _ (by rw [List.length_reverse]; omega)

theorem termOk_eq_byteFromEnd (raw : List Byte) :
    termOk raw = (decide (1 ≤ raw.length) && byteFromEnd raw 0 == Config.term) := by
  rcases List.eq_nil_or_concat raw with rfl | ⟨front, last, rfl⟩
  · rfl
  · simp [termOk]

theorem checksumMatches_eq_byteFromEnd (raw : List Byte) : checksumMatches raw =
    (isFull raw && byteFromEnd raw 2 == (compute (frameBody raw)).1
      && byteFromEnd raw 1 == (compute (frameBody raw)).2) := by
  unfold checksumMatches
  cases hfull : isFull raw with
  | false => rfl
  | true =>
    have hlen : 4 ≤ raw.length := of_decide_eq_true hfull
    have hhi : raw[raw.length - 3]? = some (byteFromEnd raw 2) := getElem?_length_sub (by omega)
    have hlo : raw[raw.length - 2]? = some (byteFromEnd raw 1) := getElem?_length_sub (by omega)
    rw [hhi, hlo]
    rfl

/-! One more byte. -/

theorem markerOk_append {raw : List Byte} (h : raw ≠ []) (d : Byte) : markerOk (raw ++ [d]) = markerOk raw := by
  rw [markerOk, List.head?_append_of_ne_nil _ h, markerOk]

/-- R99: when the byte of index `k` arrives, `k` at least 4, the byte of index `k - 3` is known to be of the body. -/
theorem frameBody_append_singleton (raw : List Byte) (d : Byte) : frameBody (raw ++ [d]) =
    frameBody raw ++ if 4 ≤ raw.length then [byteFromEnd raw 2] else [] := by
  split_ifs with h
  · obtain ⟨first, body, hi, lo, last, rfl⟩ := exists_parts_of_four_le h
    have hparts : [first] ++ body ++ [hi, lo, last] ++ [d] = [first] ++ (body ++ [hi]) ++ [lo, last, d] := by simp
    rw [hparts, frameBody_parts, frameBody_parts]
    simp [byteFromEnd]
  · rw [frameBody_of_length_le (by omega : raw.length ≤ 4), frameBody_of_length_le]
    · rfl
    · rw [List.length_append, List.length_singleton]
      omega

end Sys2Proof.Machine
end

section
/-! The buffer functions' statements. -/

namespace Sys2Proof.Machine

/-- Settles O52: the four parts of a buffer are unique, and the two tests fix the first and the last byte. -/
theorem stripReturnsTheInterior : Obligations.StripReturnsTheInterior := by
  refine ⟨fun body hi lo => ?_, fun raw body hlen hstrip => ?_⟩
  · exact (validateAndStrip_eq_ok_iff _ _).mpr ⟨markerOk_parts .., termOk_parts .., frameBody_parts ..⟩
  · obtain ⟨first, interior, hi, lo, last, rfl⟩ := exists_parts_of_four_le hlen
    simp only [validateAndStrip_eq_ok_iff, markerOk_parts, termOk_parts, frameBody_parts, beq_iff_eq] at hstrip
    obtain ⟨rfl, rfl, rfl⟩ := hstrip
    refine ⟨by simp, hi, lo, rfl, ?_, ?_, ?_⟩ <;> simp [Config.term]

/-- Settles O51: the strip's two tests are the two clauses, and it has one error. -/
theorem stripFailsExactlyOnUnframedBuffers : Obligations.StripFailsExactlyOnUnframedBuffers :=
  ⟨exists_validateAndStrip_eq_ok_iff, fun _ => validateAndStrip_eq_error_of_not_ok, rfl⟩

/-- Settles O53: one byte would have to be the marker and the terminator; two and three bytes leave no room for a body,
nor for a checksum to match. -/
theorem shortBuffersHaveTheEmptyBody : Obligations.ShortBuffersHaveTheEmptyBody := by
  refine ⟨fun b => validateAndStrip_eq_error_of_not_ok fun hok => ?_, ?_⟩
  · obtain ⟨hmarker, hterm⟩ := (exists_validateAndStrip_eq_ok_iff [b]).mp hok
    cases hmarker.symm.trans hterm
  · intro raw hraw
    obtain ⟨hmarker, hterm, hlen⟩ : markerOk raw = true ∧ termOk raw = true ∧ raw.length < 4 := by
      rcases hraw with rfl | ⟨x, rfl⟩ <;> exact ⟨rfl, rfl, by simp⟩
    have hbody : frameBody raw = [] := frameBody_of_length_le hlen.le
    have hfull : isFull raw = false := decide_eq_false (by omega)
    have hmatch : checksumMatches raw = false := by rw [checksumMatches_eq_byteFromEnd, hfull]; rfl
    refine ⟨(validateAndStrip_eq_ok_iff raw []).mpr ⟨hmarker, hterm, hbody⟩, hbody, hbody, ?_⟩
    simp only [validate, hmarker, hterm, hfull, hmatch]
    decide

/-- Settles O55: an unframed body fails as any unframed buffer does; the framed body is that of `28 28 0D 00 00 0D`. -/
theorem secondStripFailsUnlessTheBodyIsFramed : Obligations.SecondStripFailsUnlessTheBodyIsFramed :=
  ⟨fun _ body _ hbody => validateAndStrip_eq_error_of_not_ok fun hok =>
      hbody ((exists_validateAndStrip_eq_ok_iff body).mp hok),
    rfl, [0x28#8, 0x28#8, 0x0D#8, 0x00#8, 0x00#8, 0x0D#8], rfl, rfl⟩

end Sys2Proof.Machine
end

section
/-! The three commands of an inbound frame, each as one record update (R98 to R100), and the verdict they end in. -/

namespace Sys2Proof.Machine

@[simp] theorem leaveDelayLine_acc (s : State) :
    (leaveDelayLine s).acc = if s.rxn = 4 then absorb s.acc s.dl2 else s.acc := by
  split_ifs with h
  · rw [leaveDelayLine_full h]
  · rw [leaveDelayLine_short h]

theorem countByte_eq_ite (n : Fin 5) : countByte n = if n = 4 then 4 else n + 1 := by
  revert n; decide

/-- R21: the bits of `STATUS` below the sticky ones. -/
theorem statusByte_frame (s : State) : (statusByte s).extractLsb' 0 6 =
    BitVec.ofBool s.mok ++ BitVec.ofNat 3 s.rxn.val ++ s.mode.code := by
  apply BitVec.eq_of_getLsbD_eq
  intro i hi
  have hmok : i - 2 - 3 = 0 := by omega
  simp only [statusByte, BitVec.getLsbD_append, BitVec.getLsbD_extractLsb']
  simp [hi, hmok]

/-- R99 as one equation. -/
theorem exec_rxByte_eq {s : State} (hm : s.mode = .rx) (d : Byte) : exec (.rxByte d) s =
    .next { s with
      mok := markerFlag s.rxn s.mok d,
      acc := if s.rxn = 4 then absorb s.acc s.dl2 else s.acc,
      out := s.out ++ (if s.rxn = 4 ∧ s.mok = true then [⟨.body, s.dl2⟩] else []),
      dl2 := s.dl1, dl1 := s.dl0, dl0 := d,
      rxn := countByte s.rxn } := by
  rw [exec_rxByte_of_rx hm, Host.Outcome.next.injEq]
  simp [State.setMok, State.setDelay, State.setRxn]

/-- R100 as one equation. -/
theorem exec_rxEnd_eq {s : State} (hm : s.mode = .rx) : exec .rxEnd s =
    .next { s with mode := .idle, verdict := rxVerdict s, out := s.out ++ [⟨.verdict, rxVerdict s⟩] } :=
  exec_rxEnd_of_rx hm

theorem verdict_of_exec_rxEnd {s t : State} (hm : s.mode = .rx) (ht : exec .rxEnd s = .next t) :
    t.verdict = rxVerdict s := by
  rw [exec_rxEnd_eq hm, Host.Outcome.next.injEq] at ht
  subst ht
  rfl

/-- R100: `class`, by the two tests it is made of. -/
theorem classCode_frameError (framed crcMatch verify : Bool) : classCode (frameError framed crcMatch verify) =
    if accepts framed crcMatch verify then 0b00#2 else if framed then 0b10#2 else 0b01#2 := by
  unfold frameError
  split_ifs <;> rfl

end Sys2Proof.Machine
end

section
/-! The statements of RX_START, RX_BYTE, RX_END and of the verdict's fields. -/

namespace Sys2Proof.Machine

/-- Settles O27: RX_START writes constants, and its word has no operand. -/
theorem rxStartOpensAnInboundFrame : Obligations.RxStartOpensAnInboundFrame := by
  refine ⟨rfl, exec_rxStart, fun d s hd => execWord_of_operand_not_zero (by decide) hd s, fun s t ht => ?_⟩
  rw [exec_rxStart, Host.Outcome.next.injEq] at ht
  subst ht
  rw [statusByte_frame]
  simp [Mode.code]

/-- Settles O28: the word is the encoding of RX_BYTE, and the mode check decides between the shift and SEQ. -/
theorem rxByteShiftsTheDelayLine : Obligations.RxByteShiftsTheDelayLine := by
  refine ⟨fun d => ?_, fun d s hm => ?_, fun d s hm => exec_eq_afterSeq rfl hm, by decide⟩
  · have hword : 0x3100#16 + d.zeroExtend 16 = encode (.rxByte d) := append_zero_add 0x31#8 d
    rw [hword, decode_encode_of_wellFormed rfl]
  · rw [exec_rxByte_eq hm, countByte_eq_ite]
    rfl

/-- Settles O29: the verdict's definition assembles the tests as the rule does, and `class` through the error. -/
theorem rxEndReportsTheVerdict : Obligations.RxEndReportsTheVerdict := by
  refine ⟨rfl, fun s hm => ?_, fun s hm => exec_eq_afterSeq rfl hm,
    fun d s hd => execWord_of_operand_not_zero (by decide) hd s, fun s t u ht hu => ?_,
    fun s t hm hmok hrxn hacc hdl0 hverify ht => ?_⟩
  · have hfull : decide (s.rxn.val = 4) = decide (s.rxn = 4) := decide_eq_decide.mpr (Fin.ext_iff (b := 4)).symm
    intro termOk full crcMatch framed accept cls v
    have hv : v = rxVerdict s := by
      simp only [rxVerdict, verdictByte, classCode_frameError, v, cls, accept, framed, crcMatch, full, hfull]
      rfl
    rw [exec_rxEnd_eq hm, hv]
  · rw [exec_rxStart, Host.Outcome.next.injEq] at ht
    subst ht
    rw [verdict_of_exec_rxEnd rfl hu]
    change verdictByte false false false false s.verify = _
    cases s.verify <;> rfl
  · rw [verdict_of_exec_rxEnd hm ht]
    simp only [rxVerdict, receivedChecksumMatches, hmok, hrxn, hacc, hdl0, hverify]
    refine ⟨fun hdl2 hdl1 => ?_, fun hdl2 hdl1 => ?_⟩ <;> rw [hdl2, hdl1] <;> decide

/-- Settles O37: the only relation between the tests that the verdict is made of is that a match needs a full frame; the
relations between its fields hold for all tests that meet it. -/
theorem verdictFieldsAreConsistent : Obligations.VerdictFieldsAreConsistent := by
  intro s t hm ht
  have hmatch : receivedChecksumMatches s = true → decide (s.rxn = 4) = true := fun h => by
    obtain ⟨hrxn, _⟩ := (receivedChecksumMatches_iff s).mp h
    exact decide_eq_true hrxn
  rw [verdict_of_exec_rxEnd hm ht, rxVerdict]
  generalize s.mok = markerOk, (decide (1 ≤ s.rxn.val) && s.dl0 == Config.term) = termOk,
    s.verify = verify, decide (s.rxn = 4) = full, receivedChecksumMatches s = crcMatch at hmatch ⊢
  revert markerOk termOk full crcMatch verify
  decide

end Sys2Proof.Machine
end

section
/-! The RX operation (R98 to R103): what holds while a frame is open, by the bytes received so far. -/

namespace Sys2Proof.Machine

theorem rxPayload_of_isObserver {i : Instr} (hi : isObserver i = true) : rxPayload i = none := by
  cases i with
  | nop | rdreg r => rfl
  | _ => cases hi

theorem rxPayload_eq_some_iff {i : Instr} {d : Byte} : rxPayload i = some d ↔ i = .rxByte d := by
  cases i <;> simp [rxPayload]

theorem filterMap_rxPayload_rxByte (raw : List Byte) : (raw.map Instr.rxByte).filterMap rxPayload = raw := by
  rw [List.filterMap_map]
  exact List.filterMap_some

/-- R103: NOP and RDREG change nothing but the output stream, where they leave REG items only. -/
theorem exec_of_isObserver {i : Instr} (hwf : i.wellFormed = true) (hi : isObserver i = true) (s : State) :
    ∃ new, exec i s = .next { s with out := s.out ++ new } ∧ new.filter notReg = [] := by
  cases i with
  | nop => exact ⟨[], by rw [List.append_nil]; rfl, rfl⟩
  | rdreg r =>
    obtain ⟨v, _, hv⟩ := exec_rdreg_of_le (of_decide_eq_true hwf) s
    exact ⟨[⟨.reg, v⟩], hv, rfl⟩
  | _ => cases hi

/-- The commands that R103 lets stand between RX_START and RX_END. -/
def insideRx (i : Instr) : Prop := i.wellFormed = true ∧ (isObserver i = true ∨ (rxPayload i).isSome = true)

/-- R103: the BODY items of the bytes received so far. -/
def bodyItems (raw : List Byte) : List Item := if markerOk raw then (frameBody raw).map (Item.mk .body) else []

/-- R99: the byte that leaves the delay line is the one BODY item more. -/
theorem bodyItems_append_singleton (raw : List Byte) (d : Byte) : bodyItems (raw ++ [d]) =
    bodyItems raw ++ if 4 ≤ raw.length ∧ markerOk raw = true then [⟨.body, byteFromEnd raw 2⟩] else [] := by
  unfold bodyItems
  rw [frameBody_append_singleton]
  by_cases hlen : 4 ≤ raw.length
  · have hne : raw ≠ [] := List.ne_nil_of_length_pos (by omega)
    cases hmarker : markerOk raw <;> simp [hlen, hmarker, markerOk_append hne]
  · simp [hlen, frameBody_of_length_le (by omega : raw.length ≤ 4)]

/-- An open inbound frame: since the RX_START after the items `before`, under the policy `verify`, the bytes `raw` have
been received. The registers are those of R102. -/
structure RxOpen (before : List Item) (verify : Bool) (raw : List Byte) (s : State) : Prop where
  mode : s.mode = .rx
  verify : s.verify = verify
  rxn : s.rxn.val = min raw.length 4
  mok : s.mok = markerOk raw
  dl2 : s.dl2 = byteFromEnd raw 2
  dl1 : s.dl1 = byteFromEnd raw 1
  dl0 : s.dl0 = byteFromEnd raw 0
  acc : s.acc = crcRaw (frameBody raw)
  out : ∃ new, s.out = before ++ new ∧ new.filter notReg = bodyItems raw

section
variable {before : List Item} {verify : Bool} {raw : List Byte} {s : State}

theorem RxOpen.rxn_eq_four_iff (h : RxOpen before verify raw s) : s.rxn = 4 ↔ 4 ≤ raw.length := by
  rw [Fin.ext_iff, h.rxn]
  exact min_eq_right_iff

/-- R99: the marker test is made on the first byte of the frame only. -/
theorem RxOpen.markerFlag_eq (h : RxOpen before verify raw s) (d : Byte) :
    markerFlag s.rxn s.mok d = markerOk (raw ++ [d]) := by
  have hrxn := h.rxn
  rw [markerFlag, h.mok]
  rcases raw with _ | ⟨first, tail⟩
  · rw [if_pos (Fin.ext hrxn)]
    rfl
  · have hne : s.rxn ≠ 0 := fun h0 => by
      rw [h0, List.length_cons, Fin.val_zero] at hrxn
      omega
    rw [if_neg hne, markerOk_append (List.cons_ne_nil first tail)]

/-- R98: an RX_START opens a frame, whatever was open before. -/
theorem step_rxStart_open {rest : List HostInput} (hp : s.pending = .word (encode .rxStart) :: rest) :
    ∃ t, step s = .next t ∧ t.pending = rest ∧ RxOpen s.out s.verify [] t :=
  ⟨_, (step_of_pending_encode (i := .rxStart) rfl hp).trans (exec_rxStart _), rfl,
    rfl, rfl, rfl, rfl, rfl, rfl, rfl, rfl, [], (List.append_nil s.out).symm, rfl⟩

/-- What the host means to do is no part of the frame. -/
theorem RxOpen.setPending (h : RxOpen before verify raw s) (p : List HostInput) :
    RxOpen before verify raw (s.setPending p) :=
  ⟨h.mode, h.verify, h.rxn, h.mok, h.dl2, h.dl1, h.dl0, h.acc, h.out⟩

theorem RxOpen.exec_isObserver (h : RxOpen before verify raw s) {i : Instr} (hwf : i.wellFormed = true)
    (hi : isObserver i = true) :
    ∃ t, exec i s = .next t ∧ t.pending = s.pending ∧ RxOpen before verify raw t := by
  obtain ⟨newi, ht, hnewi⟩ := exec_of_isObserver hwf hi s
  obtain ⟨new, hout, hnew⟩ := h.out
  refine ⟨_, ht, rfl, h.mode, h.verify, h.rxn, h.mok, h.dl2, h.dl1, h.dl0, h.acc, new ++ newi, ?_, ?_⟩
  · rw [hout, List.append_assoc]
  · rw [List.filter_append, hnew, hnewi, List.append_nil]

theorem RxOpen.exec_rxByte (h : RxOpen before verify raw s) (d : Byte) :
    ∃ t, exec (.rxByte d) s = .next t ∧ t.pending = s.pending ∧ RxOpen before verify (raw ++ [d]) t := by
  obtain ⟨new, hout, hnew⟩ := h.out
  refine ⟨_, exec_rxByte_eq h.mode d, rfl, ?_⟩
  exact {
    mode := h.mode
    verify := h.verify
    rxn := by
      rw [countByte_val, h.rxn, List.length_append, List.length_singleton]
      omega
    mok := h.markerFlag_eq d
    dl2 := by rw [byteFromEnd_append_succ]; exact h.dl1
    dl1 := by rw [byteFromEnd_append_succ]; exact h.dl0
    dl0 := (byteFromEnd_append_zero raw d).symm
    acc := by
      rw [frameBody_append_singleton, crcRaw_append, ← h.acc, ← h.dl2]
      simp only [h.rxn_eq_four_iff]
      split_ifs <;> rfl
    out := by
      refine ⟨_, by rw [hout, List.append_assoc], ?_⟩
      rw [List.filter_append, hnew, bodyItems_append_singleton, ← h.dl2, ← h.mok]
      simp only [h.rxn_eq_four_iff]
      split_ifs <;> rfl }

theorem RxOpen.exec_insideRx (h : RxOpen before verify raw s) {i : Instr} (hi : insideRx i) (p : List HostInput) :
    ∃ t, exec i (s.setPending p) = .next t ∧ t.pending = p ∧ RxOpen before verify (raw ++ (rxPayload i).toList) t := by
  obtain ⟨hwf, hobs | hpay⟩ := hi
  · rw [rxPayload_of_isObserver hobs, Option.toList_none, List.append_nil]
    exact (h.setPending p).exec_isObserver hwf hobs
  · obtain ⟨d, hd⟩ := Option.isSome_iff_exists.mp hpay
    obtain rfl := rxPayload_eq_some_iff.mp hd
    exact (h.setPending p).exec_rxByte d

/-- R100 and R101 make the same tests, one on the registers and the other on the buffer. -/
theorem RxOpen.rxVerdict_eq (h : RxOpen before verify raw s) : rxVerdict s = (validate raw verify).1 := by
  have hfull : decide (s.rxn = 4) = isFull raw := decide_eq_decide.mpr h.rxn_eq_four_iff
  have hsome : decide (1 ≤ s.rxn.val) = decide (1 ≤ raw.length) := by
    rw [h.rxn]
    exact decide_eq_decide.mpr (by omega)
  have hmatch : receivedChecksumMatches s = checksumMatches raw := by
    rw [receivedChecksumMatches, hfull, h.dl2, h.dl1, h.acc, checksumMatches_eq_byteFromEnd]
    rfl
  rw [rxVerdict, hfull, hsome, hmatch, h.mok, h.dl0, h.verify, ← termOk_eq_byteFromEnd, validate]

/-- R103: RX_END closes the frame with the verdict on the bytes received. -/
theorem RxOpen.step_rxEnd {rest : List HostInput} (h : RxOpen before verify raw s)
    (hp : s.pending = .word (encode .rxEnd) :: rest) :
    ∃ t new, step s = .next t ∧ t.pending = rest ∧ t.mode = .idle ∧ t.out = before ++ new ∧
      new.filter notReg = bodyItems raw ++ [⟨.verdict, (validate raw verify).1⟩] ∧
      t.verdict = (validate raw verify).1 := by
  obtain ⟨new, hout, hnew⟩ := h.out
  have hopen := h.setPending rest
  refine ⟨_, new ++ [⟨.verdict, rxVerdict (s.setPending rest)⟩],
    (step_of_pending_encode (i := .rxEnd) rfl hp).trans (exec_rxEnd_eq hopen.mode), rfl, rfl, ?_, ?_,
    hopen.rxVerdict_eq⟩
  · rw [← List.append_assoc, ← hout]
    rfl
  · rw [List.filter_append, hnew, hopen.rxVerdict_eq]
    rfl

end

/-- R102, R103: RX_START and the commands inside the frame, from any state. -/
theorem runSteps_rxOpen {is : List Instr} {s : State} {rest : List HostInput} (his : ∀ i ∈ is, insideRx i)
    (hp : s.pending = presented (.rxStart :: is) ++ rest) :
    ∃ t, runSteps (is.length + 1) s = .next t ∧ t.pending = rest ∧
      RxOpen s.out s.verify (is.filterMap rxPayload) t := by
  obtain ⟨u, hu, hup, huopen⟩ := step_rxStart_open hp
  obtain ⟨t, ht, htp, htopen⟩ := runSteps_presented
    (inv := fun done => RxOpen s.out s.verify (done.filterMap rxPayload)) (done := [])
    (fun i hi => (his i hi).left)
    (fun i hi done v p hopen => by
      have hbytes : (done ++ [i]).filterMap rxPayload = done.filterMap rxPayload ++ (rxPayload i).toList := by
        cases hd : rxPayload i <;> simp [hd]
      rw [hbytes]
      exact hopen.exec_insideRx (his i hi) p)
    huopen hup
  exact ⟨t, (runSteps_succ hu is.length).trans ht, htp, htopen⟩

end Sys2Proof.Machine
end

section
/-! The statements on the RX operation. -/

namespace Sys2Proof.Machine

/-- Settles O56: the registers of the open frame, with the bytes counted from the front. -/
theorem receivedBytesAreExtracted : Obligations.ReceivedBytesAreExtracted := by
  intro raw s rest hp
  have hinside : ∀ i ∈ raw.map Instr.rxByte, insideRx i := by
    intro i hi
    obtain ⟨d, _, rfl⟩ := List.mem_map.mp hi
    exact ⟨rfl, .inr rfl⟩
  obtain ⟨t, ht, htp, hopen⟩ := runSteps_rxOpen hinside hp
  rw [filterMap_rxPayload_rxByte] at hopen
  rw [List.length_map] at ht
  refine ⟨t, ht, htp, hopen.mode, hopen.rxn, hopen.mok, hopen.dl0.trans (byteFromEnd_eq_getD raw 0),
    hopen.dl1.trans (byteFromEnd_eq_getD raw 1), hopen.dl2.trans (byteFromEnd_eq_getD raw 2), hopen.acc.trans ?_⟩
  rw [frameBody, apply_ite crcRaw, crcRaw_nil]

/-- Settles O57: the frame opened by RX_START and kept open by the commands inside it is closed by RX_END with the
verdict on its bytes; and without enforcement `accept` is `framed`. -/
theorem rxOperationIsTheBufferFunction : Obligations.RxOperationIsTheBufferFunction := by
  refine ⟨fun is s rest his hp => ?_, fun raw body => ?_⟩
  · have hplan : s.pending = presented (.rxStart :: is) ++ .word (encode .rxEnd) :: rest := by
      rw [hp, ← List.cons_append, presented_append, List.append_assoc]
      rfl
    obtain ⟨u, hu, hup, hopen⟩ := runSteps_rxOpen his hplan
    obtain ⟨t, new, ht, htp, htm, hout, hnew, hverdict⟩ := hopen.step_rxEnd hup
    have hrun : runSteps (is.length + 1 + 1) s = .next t := by
      rw [runSteps_append hu, runSteps_succ ht, runSteps_zero]
    exact ⟨t, new, hrun, htp, htm, hout, hnew, hverdict⟩
  · simp [validateAndStrip_eq_ok_iff, validate, and_assoc]

end Sys2Proof.Machine
end

section
/-! The words and the effects of RDREG and WRCTRL (R116, R117), and the register space they speak of (R20). -/

namespace Sys2Proof

/-- A well-formed command's word, written as the sum of its row's `match` and its operand. -/
theorem decode_match_add_operand {i : Instr} {op d : Byte} (hwf : i.wellFormed = true) (hi : encode i = op ++ d) :
    decode ((op ++ 0x00#8 : Word) + d.zeroExtend 16) = .ok i := by
  rw [append_zero_add, ← hi, decode_encode_of_wellFormed hwf]

/-- R49 (c). -/
theorem decode_rdreg_illegal {r : Byte} (h : 7 < r.toNat) : decode (0x40#8 ++ r) = .error .noSuchRegister := by
  simp [decode_append, Nat.not_le.mpr h]

namespace Machine

/-- R20: the eight numbers that exist. -/
theorem registerNumber_cases {r : Byte} (h : r.toNat ≤ 7) :
    r = 0#8 ∨ r = 1#8 ∨ r = 2#8 ∨ r = 3#8 ∨ r = 4#8 ∨ r = 5#8 ∨ r = 6#8 ∨ r = 7#8 := by
  simp only [← BitVec.toNat_inj, BitVec.toNat_ofNat]
  omega

theorem readReg_reset {r : Byte} (h : r.toNat ≤ 7) : readReg r State.reset = some 0x00#8 := by
  rcases registerNumber_cases h with rfl | rfl | rfl | rfl | rfl | rfl | rfl | rfl <;> rfl

/-- `VERIFY` is a field of `R[0]` and of no other register. -/
theorem readReg_setVerify {r : Byte} (hpos : 1 ≤ r.toNat) (hle : r.toNat ≤ 7) (b : Bool) (s : State) :
    readReg r (s.setVerify b) = readReg r s := by
  rcases registerNumber_cases hle with rfl | rfl | rfl | rfl | rfl | rfl | rfl | rfl
  case inl => cases hpos
  all_goals rfl

theorem exec_rdreg_of_readReg {r v : Byte} {s : State} (h : readReg r s = some v) :
    exec (.rdreg r) s = .next { s with out := s.out ++ [⟨.reg, v⟩] } := by
  change execRdreg r s = _
  rw [execRdreg, h]
  rfl

theorem ctrlByte_of_verify {s : State} (h : s.verify = true) : ctrlByte s = 0x01#8 := by
  rw [ctrlByte, h]
  rfl

end Machine
end Sys2Proof
end

section
/-! The statements on NOP, RDREG and WRCTRL. -/

namespace Sys2Proof.Machine

/-- Settles O20: NOP's meaning is the state it is given, and its word has no operand. -/
theorem nopChangesNothing : Obligations.NopChangesNothing :=
  ⟨rfl, fun _ => rfl, fun _ s hd => execWord_of_operand_not_zero (by decide) hd s⟩

/-- Settles O30: RDREG emits what `readReg` answers, which is R20's table, all zero at reset; WRCTRL writes `VERIFY`, which
only `R[0]` shows. -/
theorem rdregReadsTheRegisterSpace : Obligations.RdregReadsTheRegisterSpace := by
  refine ⟨fun s => ?table, fun r hr => decode_match_add_operand (op := 0x40#8) (decide_eq_true hr) rfl,
    fun r s hr => execWord_error (decode_rdreg_illegal hr) s, fun r => readReg_reset,
    fun r v s t hpos hle hv ht => ?unchanged, by decide⟩
  case table =>
    refine ⟨?_, ?_, ?_, ?_, ?_, ?_, ?_, ?_⟩ <;> exact exec_rdreg_of_readReg rfl
  case unchanged =>
    rw [exec_wrctrl_of_le hv, Host.Outcome.next.injEq] at ht
    subst ht
    exact readReg_setVerify hpos hle _ s

/-- Settles O32: a legal operand's bit 0 becomes `VERIFY`, an illegal one's word does not decode, and after WRCTRL 1
`CTRL` reads 0x01. -/
theorem wrctrlSetsVerify : Obligations.WrctrlSetsVerify := by
  refine ⟨fun v hv => decode_match_add_operand (op := 0x41#8) (decide_eq_true hv) rfl,
    fun v s hv => exec_wrctrl_of_le hv s, fun v s hv => execWord_error (decode_wrctrl_illegal hv) s, fun s t ht => ?_⟩
  rw [exec_wrctrl_of_le (by decide), Host.Outcome.next.injEq] at ht
  subst ht
  exact exec_rdreg_of_readReg (congrArg some (ctrlByte_of_verify rfl))

end Sys2Proof.Machine
end

section
/-! The record a state keeps of the past, its sticky bits and the items emitted so far: no command but RDREG of `STATUS`
reads it (R21, R23), so a fault taken (R128) leaves the next command's meaning as it was. -/

namespace Sys2Proof.Machine

/-- The state with another record: other sticky bits and another output stream. -/
def State.setRecord (ill seq : Bool) (out : List Item) (s : State) : State :=
  { s with ill := ill, seq := seq, out := out }

/-- R21: `STATUS` is the one register that shows the sticky bits. -/
theorem readReg_setRecord {r : Byte} (hle : r.toNat ≤ 7) (hr : r ≠ 1#8) (ill seq : Bool) (out : List Item) (s : State) :
    readReg r (s.setRecord ill seq out) = readReg r s := by
  rcases registerNumber_cases hle with rfl | rfl | rfl | rfl | rfl | rfl | rfl | rfl
  case inr.inl => exact absurd rfl hr
  all_goals rfl

/-- Under any record an admitted command but RDREG of `STATUS` has the same effect on the other elements, keeps the sticky
bits, and appends the same items. -/
theorem exec_setRecord {i : Instr} {s : State} (hwf : i.wellFormed = true) (hm : modeAllows i s.mode = true)
    (hi : i ≠ .rdreg 1#8) : ∃ t, exec i s = .next t ∧ ∀ (ill seq : Bool) (out : List Item),
      exec i (s.setRecord ill seq out) = .next (t.setRecord ill seq (out ++ emittedItems i s)) := by
  cases i with
  | nop | crcStart | txStart | rxStart =>
    simp only [emittedItems, List.append_nil]
    exact ⟨_, rfl, fun _ _ _ => rfl⟩
  | crcByte c =>
    have h := (modeAllows_of_required rfl _).mp hm
    simp only [emittedItems, List.append_nil]
    exact ⟨_, exec_crcByte_of_crc h c, fun ill seq out => exec_crcByte_of_crc (s := s.setRecord ill seq out) h c⟩
  | crcEnd =>
    have h := (modeAllows_of_required rfl _).mp hm
    exact ⟨_, exec_crcEnd_eq h, fun _ _ _ => exec_crcEnd_eq h⟩
  | txByte c =>
    have h := (modeAllows_of_required rfl _).mp hm
    exact ⟨_, exec_txByte_of_tx h c, fun ill seq out => exec_txByte_of_tx (s := s.setRecord ill seq out) h c⟩
  | txEnd =>
    have h := (modeAllows_of_required rfl _).mp hm
    exact ⟨_, exec_txEnd_eq h, fun _ _ _ => exec_txEnd_eq h⟩
  | rxByte d =>
    have h := (modeAllows_of_required rfl _).mp hm
    exact ⟨_, exec_rxByte_eq h d, fun ill seq out => exec_rxByte_eq (s := s.setRecord ill seq out) h d⟩
  | rxEnd =>
    have h := (modeAllows_of_required rfl _).mp hm
    exact ⟨_, exec_rxEnd_eq h, fun _ _ _ => exec_rxEnd_eq h⟩
  | rdreg r =>
    have hle : r.toNat ≤ 7 := of_decide_eq_true hwf
    have hr : r ≠ 1#8 := fun h => hi (congrArg Instr.rdreg h)
    obtain ⟨v, hv, hexec⟩ := exec_rdreg_of_le hle s
    refine ⟨_, hexec, fun ill seq out => ?_⟩
    have hv' : readReg r (s.setRecord ill seq out) = some v := (readReg_setRecord hle hr ill seq out s).trans hv
    simp only [emittedItems, hv, Option.getD_some]
    exact exec_rdreg_of_readReg hv'
  | wrctrl v =>
    have hle : v.toNat ≤ 1 := of_decide_eq_true hwf
    simp only [emittedItems, List.append_nil]
    exact ⟨_, exec_wrctrl_of_le hle s, fun _ _ _ => exec_wrctrl_of_le hle _⟩

/-- The state `t` a word answers, had a fault been taken before the word: its sticky bit, and its ERR item between the items
`before` and the word's own. -/
def State.withFaultBefore (f : FaultKind) (before new : List Item) (t : State) : State :=
  { t.setSticky f with out := before ++ [⟨.err, faultCode f⟩] ++ new }

theorem takeFault_takeFault (f g : FaultKind) (s : State) :
    takeFault g (takeFault f s) = (takeFault g s).withFaultBefore f s.out [⟨.err, faultCode g⟩] := by
  cases f <;> cases g <;> rfl

theorem exec_takeFault_of_modeAllows {i : Instr} {s t : State} (hwf : i.wellFormed = true)
    (hm : modeAllows i s.mode = true) (hi : i ≠ .rdreg 1#8) (ht : exec i s = .next t) (f : FaultKind) :
    exec i (takeFault f s) = .next (t.withFaultBefore f s.out (emittedItems i s)) := by
  obtain ⟨u, hu, hrecord⟩ := exec_setRecord hwf hm hi
  cases ht.symm.trans hu
  obtain ⟨_, hu', _, hseq, hill⟩ := exec_of_modeAllows hwf hm
  cases hu'.symm.trans hu
  cases f with
  | ill =>
    refine (hrecord true s.seq _).trans ?_
    rw [← hseq]
    rfl
  | seq =>
    refine (hrecord s.ill true _).trans ?_
    rw [← hill]
    rfl

/-- R128: after a fault every word but RDREG of `STATUS` is executed as without it. -/
theorem execWord_takeFault {cw : Word} {s t : State} (hcw : decode cw ≠ .ok (.rdreg 1#8)) (ht : execWord cw s = .next t) :
    ∃ new, t.out = s.out ++ new ∧ ∀ f, execWord cw (takeFault f s) = .next (t.withFaultBefore f s.out new) := by
  cases hd : decode cw with
  | error e =>
    rw [execWord_error hd, Host.Outcome.next.injEq] at ht
    subst ht
    exact ⟨_, afterIll_out s, fun f => (execWord_error hd _).trans (congrArg _ (takeFault_takeFault f .ill s))⟩
  | ok i =>
    have hi : i ≠ .rdreg 1#8 := fun h => hcw (hd.trans (congrArg _ h))
    simp only [execWord_ok hd] at ht ⊢
    cases hm : modeAllows i s.mode with
    | false =>
      obtain ⟨m, hreq, hne⟩ := modeAllows_eq_false_iff.mp hm
      rw [exec_eq_afterSeq hreq hne, Host.Outcome.next.injEq] at ht
      subst ht
      refine ⟨_, afterSeq_out s, fun f => ?_⟩
      have hne' : (takeFault f s).mode ≠ m := by rwa [takeFault, State.emit_mode, State.setSticky_mode]
      exact (exec_eq_afterSeq hreq hne').trans (congrArg _ (takeFault_takeFault f .seq s))
    | true =>
      have hwf := wellFormed_of_decode hd
      exact ⟨_, exec_out_of_modeAllows hwf hm ht, exec_takeFault_of_modeAllows hwf hm hi ht⟩

end Sys2Proof.Machine
end

section
/-! The bits of a verdict that R131 orders (R53, R100): the two framing flags, and `class` when one of them is clear. -/

namespace Sys2Proof.Machine

theorem verdictByte_markerOk (markerOk termOk full crcMatch verify : Bool) :
    (verdictByte markerOk termOk full crcMatch verify).getLsbD 1 = markerOk := by
  simp only [verdictByte, BitVec.getLsbD_append]
  simp

theorem verdictByte_termOk (markerOk termOk full crcMatch verify : Bool) :
    (verdictByte markerOk termOk full crcMatch verify).getLsbD 2 = termOk := by
  simp only [verdictByte, BitVec.getLsbD_append]
  simp

/-- R131 (2): what is not framed is malformed, whatever its checksum. -/
theorem verdictByte_class_of_not_framed {markerOk termOk : Bool} (h : (markerOk && termOk) = false)
    (full crcMatch verify : Bool) : (verdictByte markerOk termOk full crcMatch verify).extractLsb' 6 2 = 0b01#2 := by
  have hcode : classCode (frameError (markerOk && termOk) crcMatch verify) = 0b01#2 := by
    rw [classCode_frameError, h]
    rfl
  rw [verdictByte, hcode]
  iterate 6 rw [BitVec.extractLsb'_append_eq_of_le (by omega)]
  rfl

end Sys2Proof.Machine
end

section
/-! The statements on the two faults and their priorities (R128, R131). -/

namespace Sys2Proof.Machine

/-- Settles O38: the two faults as record updates, and the word after a fault by the independence of its effect from the
record; STATUS is read in the state after the fault. -/
theorem faultSetsItsBitAndEmitsOneItem : Obligations.FaultSetsItsBitAndEmitsOneItem := by
  refine ⟨fun cw e s he => execWord_error he s, fun i m s => exec_eq_afterSeq, fun cw s t hcw ht => ?_, fun f s => ?_⟩
  · obtain ⟨new, hout, hfault⟩ := execWord_takeFault hcw ht
    exact ⟨new, hout, hfault .ill, hfault .seq⟩
  · exact (execWord_ok (i := .rdreg 1#8) rfl _).trans (exec_rdreg_of_readReg rfl)

/-- Settles O40: an illegal word never meets the mode check; in mode RX the verdict's bits are those of `verdictByte` and no
sticky bit is written; in another mode RX_END is the SEQ fault. -/
theorem decodeComesBeforeTheModeCheck : Obligations.DecodeComesBeforeTheModeCheck := by
  refine ⟨fun cw e s he => ⟨afterIll s, execWord_error he s, rfl, rfl⟩, fun s t hm ht => ?_, fun s t hm ht => ?_⟩
  · rw [exec_rxEnd_eq hm, Host.Outcome.next.injEq] at ht
    subst ht
    refine ⟨fun h => ?_, verdictByte_markerOk .., ?_, rfl, rfl⟩
    · simp only [rxVerdict, verdictByte_markerOk, verdictByte_termOk] at h ⊢
      exact verdictByte_class_of_not_framed (Bool.and_eq_false_iff.mpr h) _ _ _
    · rw [rxVerdict, verdictByte_termOk]
      simp [Config.term]
  · rw [exec_eq_afterSeq rfl hm, Host.Outcome.next.injEq] at ht
    subst ht
    exact ⟨rfl, rfl⟩

end Sys2Proof.Machine
end

section
/-! A command's whole effect as one function: the fault it takes (R46, R128), if any, and otherwise one record update. The
lemmas below tie both to `exec`; what a command keeps, writes or appends is then read off the update. -/

namespace Sys2Proof.Machine

/-- R46: the fault a command takes in mode `m`: ILL for an operand it does not have, SEQ in a mode it is not legal in. -/
def faultOf (i : Instr) (m : Mode) : Option FaultKind :=
  if i.wellFormed = false then some .ill else if modeAllows i m = false then some .seq else none

theorem faultOf_eq_none_iff {i : Instr} {m : Mode} :
    faultOf i m = none ↔ i.wellFormed = true ∧ modeAllows i m = true := by
  cases hwf : i.wellFormed <;> cases hm : modeAllows i m <;> simp [faultOf, hwf, hm]

/-- What a command does that takes no fault (R74 to R76, R86 to R88, R98 to R100, R115 to R117). -/
def effect : Instr → State → State
  | .nop, s => s
  | .crcStart, s => { s with acc := 0x0000#16, mode := .crc }
  | .crcByte c, s => { s with acc := absorb s.acc c }
  | .crcEnd, s =>
    { s with mode := .idle, out := s.out ++ [⟨.crcHi, adj (highByte s.acc)⟩, ⟨.crcLo, adj (lowByte s.acc)⟩] }
  | .txStart, s => { s with acc := 0x0000#16, mode := .tx }
  | .txByte c, s => { s with acc := absorb s.acc c, out := s.out ++ [⟨.txd, c⟩] }
  | .txEnd, s =>
    { s with
      mode := .idle,
      out := s.out ++ [⟨.txd, adj (highByte s.acc)⟩, ⟨.txd, adj (lowByte s.acc)⟩, ⟨.txd, Config.term⟩] }
  | .rxStart, s =>
    { s with
      acc := 0x0000#16, rxn := 0, mok := false, dl2 := 0x00#8, dl1 := 0x00#8, dl0 := 0x00#8, verdict := 0x00#8,
      mode := .rx }
  | .rxByte d, s =>
    { s with
      mok := markerFlag s.rxn s.mok d,
      acc := if s.rxn = 4 then absorb s.acc s.dl2 else s.acc,
      out := s.out ++ (if s.rxn = 4 ∧ s.mok = true then [⟨.body, s.dl2⟩] else []),
      dl2 := s.dl1, dl1 := s.dl0, dl0 := d,
      rxn := countByte s.rxn }
  | .rxEnd, s => { s with mode := .idle, verdict := rxVerdict s, out := s.out ++ [⟨.verdict, rxVerdict s⟩] }
  | .rdreg r, s => { s with out := s.out ++ [⟨.reg, (readReg r s).getD 0x00#8⟩] }
  | .wrctrl v, s => { s with verify := v.getLsbD 0 }

/-- The state a command leaves. -/
def result (i : Instr) (s : State) : State :=
  match faultOf i s.mode with
  | none => effect i s
  | some f => takeFault f s

theorem result_of_no_fault {i : Instr} {s : State} (h : faultOf i s.mode = none) : result i s = effect i s := by
  simp [result, h]

theorem result_of_fault {i : Instr} {s : State} {f : FaultKind} (h : faultOf i s.mode = some f) :
    result i s = takeFault f s := by
  simp [result, h]

/-- R49 (c), (d): the terms that are not well-formed are of RDREG and WRCTRL. -/
theorem exec_of_not_wellFormed {i : Instr} (h : i.wellFormed = false) (s : State) : exec i s = .next (afterIll s) := by
  cases i with
  | rdreg r =>
    obtain ⟨hle, _⟩ | ⟨_, hexec⟩ := execRdreg_cases r s
    · exact absurd hle (of_decide_eq_false h)
    · exact hexec
  | wrctrl v =>
    obtain ⟨hle, _⟩ | ⟨_, hexec⟩ := execWrctrl_cases v s
    · exact absurd hle (of_decide_eq_false h)
    · exact hexec
  | _ => cases h

theorem exec_eq_effect {i : Instr} {s : State} (hwf : i.wellFormed = true) (hm : modeAllows i s.mode = true) :
    exec i s = .next (effect i s) := by
  cases i with
  | nop | crcStart | txStart | rxStart => rfl
  | crcByte c => exact exec_crcByte_of_crc ((modeAllows_of_required rfl _).mp hm) c
  | crcEnd => exact exec_crcEnd_eq ((modeAllows_of_required rfl _).mp hm)
  | txByte c => exact exec_txByte_of_tx ((modeAllows_of_required rfl _).mp hm) c
  | txEnd => exact exec_txEnd_eq ((modeAllows_of_required rfl _).mp hm)
  | rxByte d => exact exec_rxByte_eq ((modeAllows_of_required rfl _).mp hm) d
  | rxEnd => exact exec_rxEnd_eq ((modeAllows_of_required rfl _).mp hm)
  | rdreg r =>
    obtain ⟨v, hv, hexec⟩ := exec_rdreg_of_le (of_decide_eq_true hwf) s
    simp only [effect, hv, Option.getD_some]
    exact hexec
  | wrctrl v => exact exec_wrctrl_of_le (of_decide_eq_true hwf) s

theorem exec_eq_result (i : Instr) (s : State) : exec i s = .next (result i s) := by
  unfold result faultOf
  cases hwf : i.wellFormed with
  | false => exact exec_of_not_wellFormed hwf s
  | true =>
    cases hm : modeAllows i s.mode with
    | false =>
      obtain ⟨m, hi, hne⟩ := modeAllows_eq_false_iff.mp hm
      exact exec_eq_afterSeq hi hne
    | true => exact exec_eq_effect hwf hm

theorem eq_result_of_exec {i : Instr} {s t : State} (h : exec i s = .next t) : t = result i s := by
  rw [exec_eq_result, Host.Outcome.next.injEq] at h
  exact h.symm

/-- Everything a command can have done. -/
theorem exec_next_cases {i : Instr} {s t : State} (h : exec i s = .next t) :
    (∃ f, faultOf i s.mode = some f ∧ t = takeFault f s) ∨ (faultOf i s.mode = none ∧ t = effect i s) := by
  obtain rfl := eq_result_of_exec h
  cases hf : faultOf i s.mode with
  | none => exact .inr ⟨rfl, result_of_no_fault hf⟩
  | some f => exact .inl ⟨f, rfl, result_of_fault hf⟩

/-- Everything a command word can have done. -/
theorem execWord_next_cases {cw : Word} {s t : State} (h : execWord cw s = .next t) :
    (∃ f, t = takeFault f s) ∨ ∃ i, decode cw = .ok i ∧ faultOf i s.mode = none ∧ t = effect i s := by
  cases hd : decode cw with
  | error e =>
    rw [execWord_error hd, Host.Outcome.next.injEq] at h
    exact .inl ⟨.ill, h.symm⟩
  | ok i =>
    rw [execWord_ok hd] at h
    obtain ⟨f, _, ht⟩ | ⟨hf, ht⟩ := exec_next_cases h
    · exact .inl ⟨f, ht⟩
    · exact .inr ⟨i, rfl, hf, ht⟩

theorem execWord_total (cw : Word) (s : State) : ∃ t, execWord cw s = .next t := by
  cases hd : decode cw with
  | error e => exact ⟨_, execWord_error hd s⟩
  | ok i => exact ⟨_, (execWord_ok hd s).trans (exec_eq_result i s)⟩

/-- R128 as one record update, for both faults. -/
theorem takeFault_eq (f : FaultKind) (s : State) : takeFault f s =
    { s with ill := decide (f = .ill) || s.ill, seq := decide (f = .seq) || s.seq,
             out := s.out ++ [⟨.err, faultCode f⟩] } := by
  cases f <;> rfl

/-- The items a command appends are `emittedItems`, unless it takes a fault. -/
theorem effect_out {i : Instr} {s : State} (h : faultOf i s.mode = none) :
    (effect i s).out = s.out ++ emittedItems i s := by
  obtain ⟨hwf, hm⟩ := faultOf_eq_none_iff.mp h
  exact exec_out_of_modeAllows hwf hm (exec_eq_effect hwf hm)

@[simp] theorem effect_ill (i : Instr) (s : State) : (effect i s).ill = s.ill := by cases i <;> rfl
@[simp] theorem effect_seq (i : Instr) (s : State) : (effect i s).seq = s.seq := by cases i <;> rfl

/-! A step, by what is on the port. -/

theorem step_nil {s : State} (h : s.pending = []) : step s = .next s := by
  simp [step, nextInput_nil h]

theorem step_reset {s : State} {rest : List HostInput} (h : s.pending = .reset :: rest) :
    step s = .next (resetEvent (s.setPending rest)) := by
  simp [step, nextInput_cons h]

theorem step_total (s : State) : ∃ t, step s = .next t := by
  rcases hp : s.pending with _ | ⟨cw | _, rest⟩
  · exact ⟨s, step_nil hp⟩
  · rw [step_word hp]
    exact execWord_total cw _
  · exact ⟨_, step_reset hp⟩

end Sys2Proof.Machine
end

section
/-! The decoder and the encoder, each the other's inverse on the well-formed commands (R47, R48). -/

namespace Sys2Proof

/-- Settles O7: a well-formed command's row fits its word and builds the command from it. -/
theorem decodeOfEncodeIsTheCommand : Obligations.DecodeOfEncodeIsTheCommand :=
  fun _ => decode_encode_of_wellFormed

/-- A row's mask fixes every bit of the word that the row's command does not keep as its operand. -/
theorem encode_build_of_fits {row : OpcodeRow} {op d : Byte} (hmem : row ∈ opcodeRows)
    (hfits : row.fits (op ++ d) = true) : encode (row.build d) = op ++ d := by
  simp only [opcodeRows_eq, List.mem_cons, List.not_mem_nil, or_false] at hmem
  rcases hmem with rfl | rfl | rfl | rfl | rfl | rfl | rfl | rfl | rfl | rfl | rfl | rfl
  all_goals
    simp only [fits_append, mask_all, Bool.and_eq_true, beq_iff_eq, decide_eq_true_eq] at hfits
    obtain ⟨rfl, hd⟩ := hfits
  -- A row whose command keeps its operand builds the word again; the other rows leave no bit of `D` free.
  any_goals rfl
  all_goals
    subst hd
    rfl

theorem encode_of_decode {cw : Word} {i : Instr} (h : decode cw = .ok i) : encode i = cw := by
  obtain ⟨row, hmem, hfits, rfl⟩ := (decode_eq_ok_iff_row cw i).mp h
  rw [← row.fits_iff, ← word_eq_append cw] at hfits
  exact (encode_build_of_fits hmem hfits).trans (word_eq_append cw)

/-- Settles O8: the row that fits the word keeps all of its free bits as the operand. -/
theorem encodeOfDecodeIsTheWord : Obligations.EncodeOfDecodeIsTheWord :=
  fun _ _ h => ⟨encode_of_decode h, wellFormed_of_decode h⟩

/-- Settles O6, row by row. -/
theorem wordsOfTheTableDecode : Obligations.WordsOfTheTableDecode :=
  ⟨rfl, rfl, rfl, rfl, rfl, rfl, rfl, rfl, rfl, rfl, rfl, rfl⟩

/-- R49 (c), (d): the word of a command that is not well-formed is illegal. -/
theorem decode_encode_of_not_wellFormed {i : Instr} (h : i.wellFormed = false) : ∃ e, decode (encode i) = .error e := by
  cases i with
  | rdreg r => exact ⟨_, decode_rdreg_illegal (Nat.not_le.mp (of_decide_eq_false h))⟩
  | wrctrl v => exact ⟨_, Machine.decode_wrctrl_illegal (Nat.not_le.mp (of_decide_eq_false h))⟩
  | _ => cases h

end Sys2Proof
end

section
/-! The well-formed states (R26) are closed under every step. -/

namespace Sys2Proof.Machine

/-- Settles O42, on the one state. -/
theorem resetStateIsWellFormed : Obligations.ResetStateIsWellFormed := by
  unfold Obligations.ResetStateIsWellFormed
  decide

theorem wf_takeFault {s : State} (h : s.wf = true) (f : FaultKind) : (takeFault f s).wf = true := by
  rw [takeFault_eq]
  exact State.wf_of_frame_eq h rfl rfl rfl rfl rfl rfl

/-- R99: the count and the delay line move together. -/
theorem wf_effect_rxByte {s : State} (h : s.wf = true) (d : Byte) : (effect (.rxByte d) s).wf = true := by
  obtain ⟨_, _, hdl1, hdl0, hverdict⟩ := s.wf_iff.mp h
  refine (State.wf_iff _).mpr ⟨fun _ => ?_, fun hlt => hdl1 ?_, fun hlt => hdl0 ?_, fun hlt => ?_, hverdict⟩
  · simp [effect]
  · simp only [effect, countByte_val] at hlt
    omega
  · simp only [effect, countByte_val] at hlt
    omega
  · simp only [effect, countByte_val] at hlt
    omega

/-- RX_START writes reset values, RX_BYTE shifts, RX_END writes a verdict; no other command writes what R26 speaks of. -/
theorem wf_effect {s : State} (h : s.wf = true) (i : Instr) : (effect i s).wf = true := by
  cases i with
  | rxStart => exact State.wf_of_frame_eq resetStateIsWellFormed rfl rfl rfl rfl rfl rfl
  | rxByte d => exact wf_effect_rxByte h d
  | rxEnd =>
    obtain ⟨hmok, hdl2, hdl1, hdl0, _⟩ := s.wf_iff.mp h
    exact (State.wf_iff _).mpr ⟨hmok, hdl2, hdl1, hdl0, verdictWf_verdictByte ..⟩
  | _ => exact State.wf_of_frame_eq h rfl rfl rfl rfl rfl rfl

theorem wf_of_exec {i : Instr} {s t : State} (h : s.wf = true) (ht : exec i s = .next t) : t.wf = true := by
  obtain ⟨f, _, rfl⟩ | ⟨_, rfl⟩ := exec_next_cases ht
  · exact wf_takeFault h f
  · exact wf_effect h i

/-- Settles O43: the idle step and the port leave R26's elements alone, reset writes their reset values, and the commands
and the faults keep the relations. -/
theorem everyStepKeepsStatesWellFormed : Obligations.EveryStepKeepsStatesWellFormed := by
  intro s t h ht
  have hport : ∀ rest, (s.setPending rest).wf = true := fun _ => h
  obtain ⟨_, rfl⟩ | ⟨rest, _, rfl⟩ | ⟨_, rest, i, _, _, hi⟩ | ⟨_, rest, _, _, _, rfl⟩ := step_next_cases ht
  · exact h
  · exact State.wf_of_frame_eq resetStateIsWellFormed rfl rfl rfl rfl rfl rfl
  · exact wf_of_exec (hport rest) hi
  · exact wf_takeFault (hport rest) .ill

end Sys2Proof.Machine
end

section
/-! Noninterference (R25): what an operation reads is written by its own commands. -/

namespace Sys2Proof.Machine

/-- R25: two states that hold the same in what the open operation reads: nothing when none is open, `ACC` in any, the
frame registers in an inbound one. -/
def Agree (s s' : State) : Prop :=
  s.mode = s'.mode ∧ (s.mode ≠ .idle → s.acc = s'.acc) ∧
  (s.mode = .rx → s.rxn = s'.rxn ∧ s.mok = s'.mok ∧ s.dl2 = s'.dl2 ∧ s.dl1 = s'.dl1 ∧ s.dl0 = s'.dl0)

theorem agree_of_idle {s s' : State} (h : s.mode = .idle) (h' : s'.mode = .idle) : Agree s s' :=
  ⟨h.trans h'.symm, fun hne => absurd h hne, fun hrx => by rw [h] at hrx; cases hrx⟩

/-- Outside an inbound frame `ACC` is all an operation reads. -/
theorem agree_of_not_rx {s s' : State} (hmode : s.mode = s'.mode) (hacc : s.acc = s'.acc) (hrx : s.mode ≠ .rx) :
    Agree s s' :=
  ⟨hmode, fun _ => hacc, fun h => absurd h hrx⟩

theorem Agree.mode_eq {s s' : State} (h : Agree s s') : s.mode = s'.mode := h.left

theorem Agree.acc_of_mode {s s' : State} {m : Mode} (h : Agree s s') (hm : s.mode = m) (hne : m ≠ .idle) :
    s.acc = s'.acc := by
  obtain ⟨_, hacc, _⟩ := h
  exact hacc (hm ▸ hne)

theorem Agree.takeFault {s s' : State} (h : Agree s s') (f : FaultKind) : Agree (takeFault f s) (takeFault f s') := by
  rw [takeFault_eq, takeFault_eq]
  exact h

theorem agree_effect_of_start {i : Instr} (hi : i ∈ [Instr.crcStart, .txStart, .rxStart]) (s s' : State) :
    Agree (effect i s) (effect i s') := by
  simp only [List.mem_cons, List.not_mem_nil, or_false] at hi
  rcases hi with rfl | rfl | rfl
  · exact agree_of_not_rx rfl rfl (by simp [effect])
  · exact agree_of_not_rx rfl rfl (by simp [effect])
  · exact ⟨rfl, fun _ => rfl, fun _ => ⟨rfl, rfl, rfl, rfl, rfl⟩⟩

/-- R75, R87: the new `ACC` is a function of the old one. -/
theorem Agree.absorb {s s' : State} {m : Mode} (h : Agree s s') (hm : s.mode = m) (hidle : m ≠ .idle) (hrx : m ≠ .rx)
    (c : Byte) : Agree (s.setAcc (absorb s.acc c)) (s'.setAcc (absorb s'.acc c)) :=
  agree_of_not_rx h.mode_eq (congrArg (Machine.absorb · c) (h.acc_of_mode hm hidle)) (ne_of_eq_of_ne hm hrx)

/-- R99: the new frame registers and the new `ACC` are functions of the old ones. -/
theorem Agree.effect_rxByte {s s' : State} (h : Agree s s') (hm : s.mode = .rx) (d : Byte) :
    Agree (effect (.rxByte d) s) (effect (.rxByte d) s') := by
  have hacc := h.acc_of_mode hm (by decide)
  obtain ⟨hmode, _, hrx⟩ := h
  obtain ⟨hrxn, hmok, hdl2, hdl1, hdl0⟩ := hrx hm
  simp only [Agree, effect, hrxn, hmok, hdl2, hdl1, hdl0, hacc, hmode, implies_true, and_self]

theorem Agree.effect {i : Instr} {s s' : State} (h : Agree s s') (hm : modeAllows i s.mode = true) :
    Agree (effect i s) (effect i s') := by
  cases i with
  | nop | rdreg r | wrctrl v => exact h
  | crcStart | txStart | rxStart => exact agree_effect_of_start (by decide) s s'
  | crcByte c => exact h.absorb ((modeAllows_of_required rfl _).mp hm) (by decide) (by decide) c
  | txByte c => exact h.absorb ((modeAllows_of_required rfl _).mp hm) (by decide) (by decide) c
  | crcEnd | txEnd | rxEnd => exact agree_of_idle rfl rfl
  | rxByte d => exact h.effect_rxByte ((modeAllows_of_required rfl _).mp hm) d

/-- The fault a command takes depends on `MODE` alone, and its effect keeps agreement. -/
theorem Agree.result {s s' : State} (h : Agree s s') (i : Instr) : Agree (result i s) (result i s') := by
  have hmode := h.mode_eq
  cases hf : faultOf i s.mode with
  | some f =>
    rw [result_of_fault hf, result_of_fault (hmode ▸ hf)]
    exact h.takeFault f
  | none =>
    obtain ⟨_, hm⟩ := faultOf_eq_none_iff.mp hf
    rw [result_of_no_fault hf, result_of_no_fault (hmode ▸ hf)]
    exact h.effect hm

theorem Agree.exec {i : Instr} {s s' t t' : State} (h : Agree s s') (ht : exec i s = .next t)
    (ht' : exec i s' = .next t') : Agree t t' := by
  obtain rfl := eq_result_of_exec ht
  obtain rfl := eq_result_of_exec ht'
  exact h.result i

theorem Agree.execWord {cw : Word} {s s' t t' : State} (h : Agree s s') (ht : execWord cw s = .next t)
    (ht' : execWord cw s' = .next t') : Agree t t' := by
  cases hd : decode cw with
  | error e =>
    rw [execWord_error hd, Host.Outcome.next.injEq] at ht ht'
    subst ht ht'
    exact h.takeFault .ill
  | ok i =>
    rw [execWord_ok hd] at ht ht'
    exact h.exec ht ht'

@[simp] theorem effect_pending (i : Instr) (s : State) : (effect i s).pending = s.pending := by cases i <;> rfl

/-- R13: no command reads or writes what the host does next. -/
theorem execWord_pending {cw : Word} {s t : State} (ht : execWord cw s = .next t) : t.pending = s.pending := by
  obtain ⟨f, rfl⟩ | ⟨i, _, _, rfl⟩ := execWord_next_cases ht
  · rw [takeFault_eq]
  · exact effect_pending i s

/-- Both steps take the same input from the port. -/
theorem Agree.step {s s' t t' : State} (hp : s.pending = s'.pending) (h : Agree s s') (ht : step s = .next t)
    (ht' : step s' = .next t') : t.pending = t'.pending ∧ Agree t t' := by
  rcases hs : s.pending with _ | ⟨cw | _, rest⟩
  · rw [step_nil hs, Host.Outcome.next.injEq] at ht
    rw [step_nil (hp ▸ hs), Host.Outcome.next.injEq] at ht'
    subst ht ht'
    exact ⟨hp, h⟩
  · rw [step_word hs] at ht
    rw [step_word (hp ▸ hs)] at ht'
    have hport : Agree (s.setPending rest) (s'.setPending rest) := h
    exact ⟨(execWord_pending ht).trans (execWord_pending ht').symm, hport.execWord ht ht'⟩
  · rw [step_reset hs, Host.Outcome.next.injEq] at ht
    rw [step_reset (hp ▸ hs), Host.Outcome.next.injEq] at ht'
    subst ht ht'
    exact ⟨rfl, agree_of_idle rfl rfl⟩

/-- R100: the verdict is a function of the frame registers, `ACC` and `VERIFY`. -/
theorem Agree.rxVerdict_eq {s s' : State} (h : Agree s s') (hm : s.mode = .rx) (hv : s.verify = s'.verify) :
    rxVerdict s = rxVerdict s' := by
  have hacc := h.acc_of_mode hm (by decide)
  obtain ⟨_, _, hrx⟩ := h
  obtain ⟨hrxn, hmok, hdl2, hdl1, hdl0⟩ := hrx hm
  simp only [rxVerdict, receivedChecksumMatches, hrxn, hmok, hdl2, hdl1, hdl0, hacc, hv]

theorem Agree.emittedItems_eq {i : Instr} {s s' : State} (h : Agree s s') (hm : modeAllows i s.mode = true)
    (hr : ∀ r, i ≠ .rdreg r) (hv : i = .rxEnd → s.mode = .rx → s.verify = s'.verify) :
    emittedItems i s = emittedItems i s' := by
  cases i with
  | nop | crcStart | crcByte c | txStart | txByte c | rxStart | wrctrl v => rfl
  | crcEnd =>
    have hcrc : s.mode = .crc := (modeAllows_of_required rfl _).mp hm
    simp only [emittedItems, h.acc_of_mode hcrc (by decide)]
  | txEnd =>
    have htx : s.mode = .tx := (modeAllows_of_required rfl _).mp hm
    simp only [emittedItems, h.acc_of_mode htx (by decide)]
  | rxByte d =>
    obtain ⟨_, _, hrx⟩ := h
    obtain ⟨hrxn, hmok, hdl2, _, _⟩ := hrx ((modeAllows_of_required rfl _).mp hm)
    simp only [emittedItems, hrxn, hmok, hdl2]
  | rxEnd =>
    have hrx : s.mode = .rx := (modeAllows_of_required rfl _).mp hm
    simp only [emittedItems, h.rxVerdict_eq hrx (hv rfl hrx)]
  | rdreg r => exact absurd rfl (hr r)

theorem Agree.new_items_eq {i : Instr} {s s' t t' : State} (hr : ∀ r, i ≠ .rdreg r)
    (hv : i = .rxEnd → s.mode = .rx → s.verify = s'.verify) (h : Agree s s') (ht : Machine.exec i s = .next t)
    (ht' : Machine.exec i s' = .next t') : ∃ new, t.out = s.out ++ new ∧ t'.out = s'.out ++ new := by
  obtain rfl := eq_result_of_exec ht
  obtain rfl := eq_result_of_exec ht'
  have hmode := h.mode_eq
  cases hf : faultOf i s.mode with
  | some f =>
    rw [result_of_fault hf, result_of_fault (hmode ▸ hf), takeFault_eq, takeFault_eq]
    exact ⟨_, rfl, rfl⟩
  | none =>
    obtain ⟨_, hm⟩ := faultOf_eq_none_iff.mp hf
    rw [result_of_no_fault hf, result_of_no_fault (hmode ▸ hf), effect_out hf, effect_out (hmode ▸ hf)]
    exact ⟨_, rfl, congrArg _ (h.emittedItems_eq hm hr hv).symm⟩

/-- A START is legal in every mode. -/
theorem agree_of_exec_start {i : Instr} {s s' t t' : State} (hi : i ∈ [Instr.crcStart, .txStart, .rxStart])
    (ht : exec i s = .next t) (ht' : exec i s' = .next t') : Agree t t' := by
  have hf : ∀ m, faultOf i m = none := by
    simp only [List.mem_cons, List.not_mem_nil, or_false] at hi
    rcases hi with rfl | rfl | rfl <;> exact fun _ => rfl
  obtain rfl := eq_result_of_exec ht
  obtain rfl := eq_result_of_exec ht'
  rw [result_of_no_fault (hf _), result_of_no_fault (hf _)]
  exact agree_effect_of_start hi s s'

theorem result_wrctrl_verify {v : Byte} (h : v.toNat ≤ 1) (s : State) : (result (.wrctrl v) s).verify = v.getLsbD 0 := by
  have hf : faultOf (.wrctrl v) s.mode = none := faultOf_eq_none_iff.mpr ⟨decide_eq_true h, rfl⟩
  rw [result_of_no_fault hf]
  rfl

/-- R117: WRCTRL is the one command that writes `VERIFY`. -/
theorem effect_verify_of_ne_wrctrl {i : Instr} (h : ∀ v, i ≠ .wrctrl v) (s : State) : (effect i s).verify = s.verify := by
  cases i with
  | wrctrl v => exact absurd rfl (h v)
  | _ => rfl

theorem result_verify_of_ne_wrctrl {i : Instr} (h : ∀ v, i ≠ .wrctrl v) (s : State) : (result i s).verify = s.verify := by
  cases hf : faultOf i s.mode with
  | some f => rw [result_of_fault hf, takeFault_eq]
  | none => rw [result_of_no_fault hf, effect_verify_of_ne_wrctrl h]

theorem result_verify_eq {s s' : State} (h : s.verify = s'.verify) (i : Instr) :
    (result i s).verify = (result i s').verify := by
  by_cases hi : ∃ v, i = .wrctrl v
  · obtain ⟨v, rfl⟩ := hi
    by_cases hv : v.toNat ≤ 1
    · rw [result_wrctrl_verify hv, result_wrctrl_verify hv]
    · have hf : ∀ m, faultOf (.wrctrl v) m = some .ill := fun m => if_pos (decide_eq_false hv)
      rw [result_of_fault (hf _), result_of_fault (hf _)]
      exact h
  · have hi : ∀ v, i ≠ .wrctrl v := not_exists.mp hi
    rw [result_verify_of_ne_wrctrl hi, result_verify_of_ne_wrctrl hi, h]

/-- Settles O46: agreement through a command's result and through a step, the items of a command as a function of what the
states agree on, and `VERIFY` as WRCTRL's alone. -/
theorem operationsDoNotSeeEarlierResults : Obligations.OperationsDoNotSeeEarlierResults := by
  refine ⟨fun i s s' t t' h => Agree.exec h, fun s s' t t' => Agree.step, fun i s s' t t' hr hv h => ?_,
    fun i s s' t t' => agree_of_exec_start, fun i s s' t t' h ht ht' => ?_, fun v s s' t t' hv ht ht' => ?_⟩
  · exact Agree.new_items_eq hr hv h
  · obtain rfl := eq_result_of_exec ht
    obtain rfl := eq_result_of_exec ht'
    exact result_verify_eq h i
  · obtain rfl := eq_result_of_exec ht
    obtain rfl := eq_result_of_exec ht'
    rw [result_wrctrl_verify hv, result_wrctrl_verify hv]

end Sys2Proof.Machine
end

section
/-! The bit-serial check (R78), against the table-driven one nibble by nibble (R66). -/

namespace Sys2Proof.Machine

/-- One bit of the bit-serial check: the polynomial is subtracted when the bit that leaves differs from the bit that
comes. -/
def bitStep (a : Word) (b : Bool) : Word := (a <<< 1) ^^^ (if a.getLsbD 15 ^^ b then 0x1021#16 else 0x0000#16)

/-- The bits of a nibble, most significant first. -/
def nibbleBits (n : Nibble) : List Bool := [n.getLsbD 3, n.getLsbD 2, n.getLsbD 1, n.getLsbD 0]

/-- The bits that are not among the first to leave are only shifted. -/
theorem foldl_bitStep_xor (bits : List Bool) {low : Word} (hlow : ∀ k, 16 - bits.length ≤ k → low.getLsbD k = false)
    (a : Word) : bits.foldl bitStep (low ^^^ a) = (low <<< bits.length) ^^^ bits.foldl bitStep a := by
  induction bits generalizing low a with
  | nil => rw [List.length_nil, BitVec.shiftLeft_zero]; rfl
  | cons b bits ih =>
    rw [List.length_cons] at hlow
    have hhead : bitStep (low ^^^ a) b = (low <<< 1) ^^^ bitStep a b := by
      rw [bitStep, bitStep, BitVec.getLsbD_xor, hlow 15 (by omega), Bool.false_xor, BitVec.shiftLeft_xor_distrib,
        BitVec.xor_assoc]
    have htail : ∀ k, 16 - bits.length ≤ k → (low <<< 1).getLsbD k = false := fun k hk => by
      rw [BitVec.getLsbD_shiftLeft]
      by_cases h0 : k < 1
      · simp [h0]
      · simp [hlow (k - 1) (by omega)]
    rw [List.foldl_cons, List.foldl_cons, hhead, ih htail, List.length_cons, Nat.add_comm, BitVec.shiftLeft_add]

/-- The table holds, for each value of the four bits that leave, what four bit steps make of them. -/
theorem foldl_bitStep_topNibble (da n : Nibble) :
    (nibbleBits n).foldl bitStep (da.zeroExtend 16 <<< 12) = tab (da ^^^ n) := by
  revert da n
  decide

/-- The four bits of the accumulator that a nibble step shifts out, in their place. -/
def topBits (a : Word) : Word := (a.extractLsb' 12 4).zeroExtend 16 <<< 12

theorem getLsbD_topBits (a : Word) (k : Nat) : (topBits a).getLsbD k = (decide (12 ≤ k) && a.getLsbD k) := by
  rw [topBits, topNibble_eq_shiftRight, BitVec.getLsbD_shiftLeft, BitVec.getLsbD_ushiftRight]
  by_cases hk : k < 16
  · by_cases h12 : k < 12
    · simp [h12, Nat.not_le.mpr h12]
    · have hsum : 12 + (k - 12) = k := by omega
      simp [hk, h12, Nat.not_lt.mp h12, hsum]
  · rw [BitVec.getLsbD_of_ge a k (by omega)]
    simp [hk]

/-- The accumulator is the twelve bits that stay and the four that leave: the first are shifted, the others select the
table word. -/
theorem foldl_bitStep_eq_nibStep (a : Word) (n : Nibble) : (nibbleBits n).foldl bitStep a = nibStep a n := by
  have hlow : ∀ k, 12 ≤ k → (a ^^^ topBits a).getLsbD k = false := fun k hk => by
    rw [BitVec.getLsbD_xor, getLsbD_topBits, decide_eq_true hk, Bool.true_and, Bool.xor_self]
  have htop : topBits a <<< 4 = 0x0000#16 := by
    rw [topBits, ← BitVec.shiftLeft_add, BitVec.shiftLeft_eq_zero (Nat.le_refl 16)]
  calc (nibbleBits n).foldl bitStep a
      = (nibbleBits n).foldl bitStep ((a ^^^ topBits a) ^^^ topBits a) := by
        rw [BitVec.xor_assoc, BitVec.xor_self, BitVec.xor_zero]
    _ = ((a ^^^ topBits a) <<< 4) ^^^ (nibbleBits n).foldl bitStep (topBits a) :=
      foldl_bitStep_xor (nibbleBits n) hlow (topBits a)
    _ = (a <<< 4) ^^^ tab (a.extractLsb' 12 4 ^^^ n) := by
        rw [BitVec.shiftLeft_xor_distrib, htop, BitVec.xor_zero, topBits, foldl_bitStep_topNibble]

theorem bits_of_byte (c : Byte) : (List.range 8).map (fun k => c.getLsbD (7 - k)) =
    nibbleBits (highNibble c) ++ nibbleBits (lowNibble c) := by
  revert c
  decide

/-- The two nibbles of a byte, high nibble first, are its eight bits, most significant first. -/
theorem foldl_bitStep_eq_absorb (acc : Word) (c : Byte) :
    (List.range 8).foldl (fun a k => bitStep a (c.getLsbD (7 - k))) acc = absorb acc c := by
  rw [← List.foldl_map (f := fun k => c.getLsbD (7 - k)) (g := bitStep), bits_of_byte, List.foldl_append,
    foldl_bitStep_eq_nibStep, foldl_bitStep_eq_nibStep, absorb]

/-- Settles O19: the byte update is eight bit steps, and the fold over the bytes is the same fold. -/
theorem rawChecksumIsTheBitSerialCheck : Obligations.RawChecksumIsTheBitSerialCheck := by
  refine ⟨fun data => ?_, by decide⟩
  have hupdate : absorb = fun acc c => (List.range 8).foldl (fun a k => bitStep a (c.getLsbD (7 - k))) acc :=
    funext₂ fun acc c => (foldl_bitStep_eq_absorb acc c).symm
  rw [crcRaw, hupdate]
  rfl

end Sys2Proof.Machine
end

section
/-! The output stream and the sticky bits as a record: no step reads the stream (R23), and the two together tell whether a
run was clean (R149). -/

namespace Sys2Proof.Machine

/-- The state had these items been emitted before. -/
def State.prependOut (earlier : List Item) (s : State) : State := { s with out := earlier ++ s.out }

theorem takeFault_prependOut (f : FaultKind) (earlier : List Item) (s : State) :
    takeFault f (s.prependOut earlier) = (takeFault f s).prependOut earlier := by
  simp only [takeFault_eq, State.prependOut, List.append_assoc]

theorem effect_prependOut (i : Instr) (earlier : List Item) (s : State) :
    effect i (s.prependOut earlier) = (effect i s).prependOut earlier := by
  cases i with
  | nop | crcStart | crcByte c | txStart | rxStart | wrctrl v => rfl
  | crcEnd | txByte c | txEnd =>
    simp only [effect, State.prependOut, List.append_assoc]
  | rxByte d | rxEnd | rdreg r =>
    simp only [effect, State.prependOut, List.append_assoc]
    rfl

theorem result_prependOut (i : Instr) (earlier : List Item) (s : State) :
    result i (s.prependOut earlier) = (result i s).prependOut earlier := by
  cases hf : faultOf i s.mode with
  | none => rw [result_of_no_fault hf, result_of_no_fault (s := s.prependOut earlier) hf, effect_prependOut]
  | some f => rw [result_of_fault hf, result_of_fault (s := s.prependOut earlier) hf, takeFault_prependOut]

theorem execWord_prependOut {cw : Word} {s t : State} (h : execWord cw s = .next t) (earlier : List Item) :
    execWord cw (s.prependOut earlier) = .next (t.prependOut earlier) := by
  cases hd : decode cw with
  | error e =>
    rw [execWord_error hd, Host.Outcome.next.injEq] at h
    subst h
    exact (execWord_error hd _).trans (congrArg _ (takeFault_prependOut .ill earlier s))
  | ok i =>
    rw [execWord_ok hd] at h
    obtain rfl := eq_result_of_exec h
    rw [execWord_ok hd, exec_eq_result, result_prependOut]

/-- Settles O45: a step takes its input from the port, and neither reset nor a word looks at the items before. -/
theorem noStepReadsTheOutputStream : Obligations.NoStepReadsTheOutputStream := by
  intro s t earlier ht
  change step (s.prependOut earlier) = .next (t.prependOut earlier)
  rcases hp : s.pending with _ | ⟨cw | _, rest⟩
  · rw [step_nil hp, Host.Outcome.next.injEq] at ht
    subst ht
    exact step_nil hp
  · rw [step_word hp] at ht
    exact (step_word (s := s.prependOut earlier) hp).trans (execWord_prependOut ht earlier)
  · rw [step_reset hp, Host.Outcome.next.injEq] at ht
    subst ht
    exact step_reset (s := s.prependOut earlier) hp

/-- Only a fault emits an ERR item (R50, R51). -/
theorem kind_ne_err_of_mem_emittedItems (i : Instr) (s : State) : ∀ item ∈ emittedItems i s, item.kind ≠ .err := by
  cases i with
  | rxByte d => simp only [emittedItems]; split_ifs <;> simp
  | _ => simp [emittedItems]

/-- The sticky bits and the ERR items tell the same faults. -/
structure FaultsRecorded (s : State) : Prop where
  ill : s.ill = true ↔ ⟨.err, faultCode .ill⟩ ∈ s.out
  seq : s.seq = true ↔ ⟨.err, faultCode .seq⟩ ∈ s.out
  err : ∀ item ∈ s.out, item.kind = .err → ∃ f, item = ⟨.err, faultCode f⟩

theorem FaultsRecorded.takeFault {s : State} (h : FaultsRecorded s) (f : FaultKind) :
    FaultsRecorded (takeFault f s) := by
  rw [takeFault_eq]
  refine ⟨?_, ?_, fun item hitem herr => ?_⟩
  · cases f <;> simp [h.ill, faultCode]
  · cases f <;> simp [h.seq, faultCode]
  · obtain hold | hnew := List.mem_append.mp hitem
    · exact h.err item hold herr
    · exact ⟨f, List.mem_singleton.mp hnew⟩

theorem FaultsRecorded.effect {i : Instr} {s : State} (h : FaultsRecorded s) (hf : faultOf i s.mode = none) :
    FaultsRecorded (effect i s) := by
  have herr : ∀ item : Item, item.kind = .err → (item ∈ (Machine.effect i s).out ↔ item ∈ s.out) := fun item hkind => by
    rw [effect_out hf, List.mem_append, or_iff_left fun hnew => kind_ne_err_of_mem_emittedItems i s item hnew hkind]
  exact {
    ill := by rw [effect_ill, herr _ rfl, h.ill]
    seq := by rw [effect_seq, herr _ rfl, h.seq]
    err := fun item hitem hkind => h.err item ((herr item hkind).mp hitem) hkind }

theorem FaultsRecorded.execWord {cw : Word} {s t : State} (h : FaultsRecorded s) (ht : execWord cw s = .next t) :
    FaultsRecorded t := by
  obtain ⟨f, rfl⟩ | ⟨i, _, hf, rfl⟩ := execWord_next_cases ht
  · exact h.takeFault f
  · exact h.effect hf

/-- The port is no part of the record. -/
theorem FaultsRecorded.setPending {s : State} (h : FaultsRecorded s) (p : List HostInput) :
    FaultsRecorded (s.setPending p) :=
  ⟨h.ill, h.seq, h.err⟩

theorem faultsRecorded_reset : FaultsRecorded State.reset :=
  ⟨by decide, by decide, fun _ hitem => absurd hitem List.not_mem_nil⟩

theorem FaultsRecorded.clean_iff {s : State} (h : FaultsRecorded s) :
    s.clean = true ↔ ∀ item ∈ s.out, item.kind ≠ .err := by
  simp only [State.clean, Bool.and_eq_true, Bool.not_eq_true', ← Bool.not_eq_true, h.ill, h.seq]
  constructor
  · rintro ⟨hill, hseq⟩ item hitem hkind
    obtain ⟨f, rfl⟩ := h.err item hitem hkind
    cases f with
    | ill => exact hill hitem
    | seq => exact hseq hitem
  · exact fun hno => ⟨fun hill => hno _ hill rfl, fun hseq => hno _ hseq rfl⟩

/-- A run of any words completes, and keeps the record. -/
theorem runSteps_words_faultsRecorded {words : List Word} {s : State} (h : FaultsRecorded s)
    (hp : s.pending = words.map .word) : ∃ t, runSteps words.length s = .next t ∧ FaultsRecorded t := by
  induction words generalizing s with
  | nil => exact ⟨s, rfl, h⟩
  | cons cw words ih =>
    obtain ⟨u, hu⟩ := execWord_total cw (s.setPending (words.map .word))
    have hstep : step s = .next u := (step_word hp).trans hu
    obtain ⟨t, ht, hrec⟩ := ih ((h.setPending _).execWord hu) (execWord_pending hu)
    exact ⟨t, (runSteps_succ hstep words.length).trans ht, hrec⟩

/-- Settles O47: the record holds at reset, and every word of the run keeps it. -/
theorem runIsCleanExactlyIfNoErrItem : Obligations.RunIsCleanExactlyIfNoErrItem := by
  intro words
  obtain ⟨t, ht, hrec⟩ := runSteps_words_faultsRecorded (words := words)
    (faultsRecorded_reset.setPending (words.map .word)) rfl
  exact ⟨t, ht, hrec.ill, hrec.seq, hrec.clean_iff⟩

end Sys2Proof.Machine
end

section
/-! The buffers that enforcement accepts (R101, R56), and those whose BODY items are emitted and then rejected (R105). -/

namespace Sys2Proof.Machine

theorem checksumMatches_parts (first hi lo last : Byte) (body : List Byte) :
    checksumMatches ([first] ++ body ++ [hi, lo, last]) = (hi == (compute body).1 && lo == (compute body).2) := by
  have hfull : isFull ([first] ++ body ++ [hi, lo, last]) = true := decide_eq_true (by simp)
  rw [checksumMatches_eq_byteFromEnd, hfull, frameBody_parts]
  simp [byteFromEnd]

theorem validate_accept_iff (raw : List Byte) (verify : Bool) : (validate raw verify).1.getLsbD 0 = true ↔
    markerOk raw = true ∧ termOk raw = true ∧ (verify = true → checksumMatches raw = true) := by
  cases verify <;> simp [validate, and_assoc]

theorem four_le_of_checksumMatches {raw : List Byte} (h : checksumMatches raw = true) : 4 ≤ raw.length := by
  rw [checksumMatches, Bool.and_assoc, Bool.and_eq_true] at h
  obtain ⟨hfull, _⟩ := h
  exact of_decide_eq_true hfull

/-- Settles O54: a buffer whose checksum matches has the four parts, and the three tests fix all of them but the body. -/
theorem enforcedAcceptanceIsExactlyTheResponseFrames : Obligations.EnforcedAcceptanceIsExactlyTheResponseFrames := by
  intro raw
  simp only [validate_accept_iff, forall_const]
  constructor
  · rintro ⟨hmarker, hterm, hmatch⟩
    obtain ⟨first, body, hi, lo, last, rfl⟩ := exists_parts_of_four_le (four_le_of_checksumMatches hmatch)
    simp only [markerOk_parts, termOk_parts, checksumMatches_parts, Bool.and_eq_true, beq_iff_eq] at hmarker hterm hmatch
    obtain ⟨rfl, rfl⟩ := hmatch
    exact ⟨body, by rw [hmarker, hterm]; rfl, frameBody_parts ..⟩
  · rintro ⟨body, rfl, _⟩
    exact ⟨markerOk_parts .., termOk_parts .., (checksumMatches_parts ..).trans (by simp)⟩

/-- R103: an inbound frame has BODY items exactly when the marker was right and there is a byte between it and the
trailer. -/
theorem exists_mem_bodyItems_iff (raw : List Byte) :
    (∃ item, item ∈ bodyItems raw) ↔ markerOk raw = true ∧ 5 ≤ raw.length := by
  have hlen : 0 < (frameBody raw).length ↔ 5 ≤ raw.length := by
    rw [length_frameBody]
    omega
  unfold bodyItems
  cases markerOk raw with
  | false => simp
  | true => simp [← hlen, List.length_pos_iff_exists_mem]

theorem kind_of_mem_bodyItems {raw : List Byte} {item : Item} (h : item ∈ bodyItems raw) : item.kind = .body := by
  unfold bodyItems at h
  split_ifs at h
  · obtain ⟨b, _, rfl⟩ := List.mem_map.mp h
    rfl
  · cases h

/-- REG items apart, the items of an open frame are its BODY items. -/
theorem exists_body_item_iff {new : List Item} {raw : List Byte} (h : new.filter notReg = bodyItems raw) :
    (∃ item ∈ new, item.kind = .body) ↔ markerOk raw = true ∧ 5 ≤ raw.length := by
  rw [← exists_mem_bodyItems_iff]
  constructor
  · rintro ⟨item, hitem, hkind⟩
    exact ⟨item, h ▸ List.mem_filter.mpr ⟨hitem, by simp [notReg, hkind]⟩⟩
  · rintro ⟨item, hitem⟩
    have hkind := kind_of_mem_bodyItems hitem
    rw [← h] at hitem
    exact ⟨item, List.mem_of_mem_filter hitem, hkind⟩

/-- R105's condition: with the marker right, a verdict that does not accept has found the terminator or the checksum
wrong. -/
theorem validate_rejects_iff {raw : List Byte} (hmarker : markerOk raw = true) (verify : Bool) :
    (validate raw verify).1.getLsbD 0 = false ↔
      raw.getLast? ≠ some Config.term ∨ (verify = true ∧ checksumMatches raw = false) := by
  rw [← Bool.not_eq_true, validate_accept_iff, ne_eq, ← termOk_iff]
  simp only [hmarker, true_and, not_and_or, Classical.not_imp, Bool.not_eq_true]

/-- Settles O58: the items before RX_END are those of the open frame, RX_END appends the verdict, and R105's condition is
the marker test with a body, and one of the other two tests failed. -/
theorem bodyItemsAreRejectedExactlyThen : Obligations.BodyItemsAreRejectedExactlyThen := by
  intro is s rest his hp raw
  have hplan : s.pending = presented (.rxStart :: is) ++ .word (encode .rxEnd) :: rest := by
    rw [hp, ← List.cons_append, presented_append, List.append_assoc]
    rfl
  obtain ⟨u, hu, hup, hopen⟩ := runSteps_rxOpen his hplan
  have hend : step u = .next (effect .rxEnd (u.setPending rest)) :=
    (step_of_pending_encode (i := .rxEnd) rfl hup).trans (exec_rxEnd_eq hopen.mode)
  have hrun : runSteps (is.length + 1 + 1) s = .next (effect .rxEnd (u.setPending rest)) := by
    rw [runSteps_append hu, runSteps_succ hend, runSteps_zero]
  obtain ⟨new, hout, hnew⟩ := hopen.out
  refine ⟨_, new, (validate raw s.verify).1, hrun, ?_, ?_⟩
  · rw [← hout, ← hopen.rxVerdict_eq]
    rfl
  · rw [exists_body_item_iff hnew, and_assoc]
    exact (and_congr_right fun hmarker => and_congr_right fun _ => validate_rejects_iff hmarker s.verify).trans
      (and_congr_left' (markerOk_iff raw))

end Sys2Proof.Machine
end

section
/-! The assembler (R59, R60). -/

namespace Sys2Proof.Machine

/-- Only commands with a legal word are assembled from a line. -/
theorem wellFormed_of_assembleLine {line : List Char} {is : List Instr} (h : assembleLine line = some is) :
    ∀ i ∈ is, i.wellFormed = true := by
  rw [assembleLine] at h
  split_ifs at h
  · cases h
    exact fun _ hi => absurd hi List.not_mem_nil
  · simp only at h
    split at h
    · split_ifs at h with hall
      cases h
      exact List.all_eq_true.mp hall
    · cases h

theorem wellFormed_of_assembleLines {lines : List (List Char)} {is : List Instr} (h : assembleLines lines = some is) :
    ∀ i ∈ is, i.wellFormed = true := by
  induction lines generalizing is with
  | nil =>
    cases h
    exact fun _ hi => absurd hi List.not_mem_nil
  | cons line lines ih =>
    rw [assembleLines] at h
    split at h
    · rename_i js ks hjs hks
      cases h
      exact List.forall_mem_append.mpr ⟨wellFormed_of_assembleLine hjs, ih hks⟩
    · cases h

/-- Settles O60: every assembled command is well-formed, and the word of such a command decodes to it. -/
theorem assemblerWritesLegalWords : Obligations.AssemblerWritesLegalWords := by
  intro source words hwords cw hcw
  obtain ⟨is, his, rfl⟩ := Option.map_eq_some_iff.mp hwords
  obtain ⟨i, hi, rfl⟩ := List.mem_map.mp hcw
  have hwf := wellFormed_of_assembleLines his i hi
  exact ⟨i, decode_encode_of_wellFormed hwf, hwf⟩

end Sys2Proof.Machine
end

section
/-! One step (R38, R46, R140, R145, R128) and what each command leaves as it was (R17, R25). -/

namespace Sys2Proof.Machine

/-- R17: no command word clears a sticky bit. -/
theorem sticky_of_execWord {cw : Word} {s t : State} (h : execWord cw s = .next t) :
    (s.ill = true → t.ill = true) ∧ (s.seq = true → t.seq = true) := by
  obtain ⟨f, rfl⟩ | ⟨i, _, _, rfl⟩ := execWord_next_cases h
  · rw [takeFault_eq]
    exact ⟨fun hill => by simp [hill], fun hseq => by simp [hseq]⟩
  · rw [effect_ill, effect_seq]
    exact ⟨id, id⟩

/-- Settles O2: the reset event by its definition, and what a word does to the sticky bits. -/
theorem resetEventRestoresTheResetState : Obligations.ResetEventRestoresTheResetState := by
  refine ⟨fun s rest hp => step_reset hp, fun s t cw rest hp ht => ?_⟩
  rw [step_word hp] at ht
  exact sticky_of_execWord (s := s.setPending rest) ht

/-- Settles O3. -/
theorem nothingPresentedHoldsTheState : Obligations.NothingPresentedHoldsTheState :=
  fun _ => step_nil

/-- Settles O4: a step on a word is the step function of R46, whose two outcomes are those of the decoder. -/
theorem stepRunsTheDecodedCommand : Obligations.StepRunsTheDecodedCommand :=
  fun _ _ _ hp => ⟨fun _ hi => (step_word hp).trans (execWord_ok hi _),
    fun _ he => (step_word hp).trans (execWord_error he _)⟩

/-- Settles O5: every command answers its `result`, and a step is idle, a reset, a fault or a command. -/
theorem everyStepAnswersANextState : Obligations.EveryStepAnswersANextState :=
  ⟨step_total, fun i s => ⟨result i s, exec_eq_result i s⟩⟩

/-- Settles O31: a term that is not well-formed faults ILL, and so does its word, which does not decode; a well-formed term
is what its word decodes to. -/
theorem operandsThatDoNotExistFaultIll : Obligations.OperandsThatDoNotExistFaultIll := by
  refine ⟨fun r s hr => exec_of_not_wellFormed (i := .rdreg r) (decide_eq_false (Nat.not_le.mpr hr)) s,
    fun v s hv => exec_of_not_wellFormed (i := .wrctrl v) (decide_eq_false (Nat.not_le.mpr hv)) s, fun i s => ?_⟩
  cases hwf : i.wellFormed with
  | true => exact execWord_ok (decode_encode_of_wellFormed hwf) s
  | false =>
    obtain ⟨e, he⟩ := decode_encode_of_not_wellFormed hwf
    rw [execWord_error he, exec_of_not_wellFormed hwf]

/-- R25: `ACC` is written by the STARTs and the BYTEs. -/
theorem effect_acc_of_no_payload {i : Instr} (hstart : i ∉ [Instr.crcStart, .txStart, .rxStart])
    (hcrc : crcPayload i = none) (htx : txPayload i = none) (hrx : rxPayload i = none) (s : State) :
    (effect i s).acc = s.acc := by
  cases i with
  | crcStart | txStart | rxStart => exact absurd (by decide) hstart
  | crcByte c => cases hcrc
  | txByte c => cases htx
  | rxByte d => cases hrx
  | _ => rfl

/-- R25: the frame registers are written by RX_START and RX_BYTE. -/
theorem effect_frame_of_ne_rxStart {i : Instr} (hstart : i ≠ .rxStart) (hrx : rxPayload i = none) (s : State) :
    (effect i s).rxn = s.rxn ∧ (effect i s).mok = s.mok ∧ (effect i s).dl2 = s.dl2 ∧ (effect i s).dl1 = s.dl1 ∧
      (effect i s).dl0 = s.dl0 := by
  cases i with
  | rxStart => exact absurd rfl hstart
  | rxByte d => cases hrx
  | _ => exact ⟨rfl, rfl, rfl, rfl, rfl⟩

/-- R25: `VERDICT` is written by RX_START and RX_END. -/
theorem effect_verdict_of_ne {i : Instr} (hstart : i ≠ .rxStart) (hend : i ≠ .rxEnd) (s : State) :
    (effect i s).verdict = s.verdict := by
  cases i with
  | rxStart => exact absurd rfl hstart
  | rxEnd => exact absurd rfl hend
  | _ => rfl

/-- Settles O44: a fault writes its sticky bit and nothing else that R25 speaks of; of the effects, each element has its
writers. -/
theorem resultsKeepTheirValuesUntilTheirNextWriter : Obligations.ResultsKeepTheirValuesUntilTheirNextWriter := by
  intro i s t ht
  obtain ⟨f, _, rfl⟩ | ⟨_, rfl⟩ := exec_next_cases ht
  · rw [takeFault_eq]
    exact ⟨fun _ _ _ _ => rfl, fun _ _ => ⟨rfl, rfl, rfl, rfl, rfl⟩, fun _ _ => rfl, fun _ => rfl,
      fun hill => by simp [hill], fun hseq => by simp [hseq]⟩
  · rw [effect_ill, effect_seq]
    exact ⟨fun hstart hcrc htx hrx => effect_acc_of_no_payload hstart hcrc htx hrx s,
      fun hstart hrx => effect_frame_of_ne_rxStart hstart hrx s,
      fun hstart hend => effect_verdict_of_ne hstart hend s, fun h => effect_verify_of_ne_wrctrl h s, id, id⟩

end Sys2Proof.Machine
end

section
/-! Items (R50), adjusted bytes (R79), the policy of a frame (R154), and the pseudo-instructions (R60). -/

namespace Sys2Proof.Machine

/-- R128: an ERR item appended by a command word carries the code of a fault. -/
theorem execWord_new_items {cw : Word} {s t : State} (h : execWord cw s = .next t) :
    ∃ new, t.out = s.out ++ new ∧ ∀ item ∈ new, item.kind = .err → ∃ f, item.data = faultCode f := by
  obtain ⟨f, rfl⟩ | ⟨i, _, hf, rfl⟩ := execWord_next_cases h
  · refine ⟨[⟨.err, faultCode f⟩], by rw [takeFault_eq], fun item hitem _ => ⟨f, ?_⟩⟩
    rw [List.mem_singleton.mp hitem]
  · exact ⟨emittedItems i s, effect_out hf,
      fun item hitem herr => absurd herr (kind_ne_err_of_mem_emittedItems i s item hitem)⟩

theorem step_new_items {s t : State} (h : step s = .next t) :
    ∃ new, t.out = s.out ++ new ∧ ∀ item ∈ new, item.kind = .err → ∃ f, item.data = faultCode f := by
  have hnone : ∀ item ∈ ([] : List Item), item.kind = .err → ∃ f, item.data = faultCode f :=
    List.forall_mem_nil _
  rcases hp : s.pending with _ | ⟨cw | _, rest⟩
  · rw [step_nil hp, Host.Outcome.next.injEq] at h
    subst h
    exact ⟨[], (List.append_nil _).symm, hnone⟩
  · rw [step_word hp] at h
    exact execWord_new_items (s := s.setPending rest) h
  · rw [step_reset hp, Host.Outcome.next.injEq] at h
    subst h
    exact ⟨[], (List.append_nil _).symm, hnone⟩

/-- Settles O35: an item's bits are its two parts side by side, and an ERR item is a fault's. -/
theorem itemsCarryTheirKindAndData : Obligations.ItemsCarryTheirKindAndData := by
  refine ⟨fun item => ⟨BitVec.extractLsb'_append_eq_left, BitVec.extractLsb'_append_eq_right⟩,
    rfl, rfl, rfl, rfl, rfl, rfl, rfl, fun s t ht => ?_⟩
  obtain ⟨new, hout, herr⟩ := step_new_items ht
  refine ⟨new, hout, fun item hitem hkind => ?_⟩
  obtain ⟨f, hf⟩ := herr item hitem hkind
  cases f with
  | ill => exact .inl hf
  | seq => exact .inr hf

/-- R79: the bytes that are not reserved are adjusted to themselves, and no byte to a reserved one. -/
theorem exists_adj_eq_iff (b : Byte) : (∃ a, adj a = b) ↔ b ∉ Config.reserved := by
  constructor
  · rintro ⟨a, rfl⟩
    exact adj_not_reserved a
  · exact fun hb => ⟨b, adj_of_not_reserved hb⟩

/-- Settles O17: the three collisions by evaluation, and the range of avoidance. -/
theorem avoidanceIsNotInjective : Obligations.AvoidanceIsNotInjective :=
  ⟨rfl, rfl, rfl, exists_adj_eq_iff⟩

/-- R53, R100: `accept`, by the verdict's own bits and the policy. -/
theorem verdictByte_accept_iff (markerOk termOk full crcMatch verify : Bool) :
    (verdictByte markerOk termOk full crcMatch verify).getLsbD 0 = true ↔
      (verdictByte markerOk termOk full crcMatch verify).getLsbD 1 = true ∧
      (verdictByte markerOk termOk full crcMatch verify).getLsbD 2 = true ∧
      (verify = true → (verdictByte markerOk termOk full crcMatch verify).getLsbD 4 = true) := by
  cases verify <;> simp [and_assoc]

/-- R18: of the two values an operand of WRCTRL has, the one whose `VERIFY` is set. -/
theorem getLsbD_zero_iff_eq_one {v : Byte} (h : v.toNat ≤ 1) : v.getLsbD 0 = true ↔ v = 1#8 := by
  have hv : v = 0#8 ∨ v = 1#8 := by
    simp only [← BitVec.toNat_inj, BitVec.toNat_ofNat]
    omega
  rcases hv with rfl | rfl <;> decide

/-- Settles O41: RX_END reads the `VERIFY` that the WRCTRL before it has written. -/
theorem verifyIsSampledByRxEnd : Obligations.VerifyIsSampledByRxEnd := by
  intro v s t u hm hv ht hu
  rw [exec_wrctrl_of_le hv, Host.Outcome.next.injEq] at ht
  subst ht
  rw [verdict_of_exec_rxEnd (s := s.setVerify (v.getLsbD 0)) hm hu, rxVerdict, State.setVerify_verify,
    ← getLsbD_zero_iff_eq_one hv]
  exact ⟨verdictByte_verify .., verdictByte_accept_iff ..⟩

/-- Settles O59: the example assembled, and the table of expansions row by row. -/
theorem assemblerExpandsThePseudoInstructions : Obligations.AssemblerExpandsThePseudoInstructions :=
  ⟨by decide, fun _ => ⟨rfl, rfl, rfl, rfl, rfl, rfl⟩, fun _ => rfl, rfl, rfl⟩

end Sys2Proof.Machine
end
